-- ==== Sys2Proof/Word.lean ====
section
/-! DEFINITION. The byte, and the numbers of the things of which the LT128 has a fixed count. -/

namespace Sys2Proof

/-- One byte of a message, a frame or a stored image. -/
abbrev Byte := BitVec 8

/-- A lease slot's number, 0 to 127 (chapter 2.1). -/
abbrev SlotNo := Fin 128

/-- A wait entry's number, 0 to 47 (chapter 3.4). -/
abbrev WaitNo := Fin 48

/-- A resource's number, and the number of its directory entry, 0 to 255 (chapter 1.1). -/
abbrev ResNo := Fin 256

/-- A directory page's number, 0 to 15 (R135). -/
abbrev PageNo := Fin 16

end Sys2Proof
end

