-- ==== Sys2Proof/Config.lean ====
section
/-! DEFINITION. What the part fixes: depths, limits and the erased value. The spec leaves no result of
a command free, so there is no free value here: what the array physically does enters as an operand
of the command concerned (assumption log 6). -/

namespace Sys2Proof.Config

/-- Inbound FIFO depth of every port (Table 7-1). -/
def fifoDepth : Nat := 4

/-- Outbound entries of a client port (R110). -/
def clientDepth : Nat := 16

/-- Notice limit of a client port (R110). -/
def clientNotices : Nat := 12

/-- Outbound entries of port S (R110). -/
def supDepth : Nat := 8

/-- Notice limit of port S (R110). -/
def supNotices : Nat := 6

/-- Places of the activation list (R9). -/
def activationPlaces : Nat := 4

/-- Slots a client may occupy (R26). -/
def slotCap : Nat := 16

/-- Waits a client may have queued (R47). -/
def waitCap : Nat := 2

/-- The last sequence of an epoch (R29), the last epoch (R152), and the code of "indefinite" (chapter 11). -/
def last16 : Nat := 65535

/-- REFCLK periods of a tick at prescale 1 (R75). -/
def tickPeriods : Nat := 4096

/-- The erased value of the array (R135). -/
def erased : Byte := 0xFF#8

/-- Bytes of a directory image (R135). -/
def imageBytes : Nat := 24

/-- Bytes of a header page that the layout names (Table 11-8). DEDUCED, log 4. -/
def headerBytes : Nat := 80

/-- Prescale in FAULTED (R154). -/
def defaultPrescale : Nat := 4

/-- Epoch marks of a header page (R150). -/
def marks : Nat := 64

end Sys2Proof.Config
end

