-- ==== Sys2Proof/Syntax.lean ====
section
/-! DEFINITION. The commands: one constructor per row of spec/opcode_table.json. A request row has no
operand of its own: its operands are the bytes of the frame in hand (R157; assumption log 2). -/

namespace Sys2Proof

/-- A client port. -/
inductive CPort where
  | a | b | c | d
  deriving DecidableEq, Repr

/-- A port: a client port or the supervisor port S. -/
inductive PortId where
  | client (p : CPort)
  | sup
  deriving DecidableEq, Repr

/-- What part of a transaction a command covers (R101, R102, R104; log 9): all of it, its beginning (falling
edge of CSx#), the end of its first status byte, the end of its second one, or its end (rising edge). -/
inductive Edge where
  | whole | begins | reports | fixes | ends
  deriving DecidableEq, Repr

/-- What the array physically did, one item for each erase or program of the event, in order (log 6):
`none` as intended, `some g` otherwise, `g` the bits that stayed programmed to erase or to program. -/
abbrev Quirks := List (Option (List Byte))

/-- What a start-up meets: what the array does at its erases and programs, and whether the reading of the header
pages fails in passing, so that no page reads valid (R156; log 7). -/
structure StartUpRun where
  phys : Quirks
  readFails : Bool
  deriving DecidableEq, Repr

/-- The commands of the LT128. -/
inductive Instr where
  -- supply, RESET# and start-up (R149, R148, R154)
  | powerOn
  | resetAssert (done : Quirks)
  | resetRelease
  | powerLoss (done : Quirks)
  | startUpComplete (run : StartUpRun)
  -- transactions (R101 to R105)
  | writeTransaction (p : PortId) (e : Edge) (sent : List Byte)
  | readTransaction (p : PortId) (e : Edge) (bits : Nat)
  | statusTransaction (p : PortId) (e : Edge) (bits : Nat)
  | unknownKindTransaction (p : PortId) (e : Edge) (kind : Byte) (bits : Nat)
  -- the request in hand: client requests (R157; chapters 3 to 7)
  | unknownRequestKind
  | acquire
  | cancelWait
  | release
  | renew
  | upgrade
  | cancelUpgrade
  | downgrade
  | verify
  | queryResource
  | queryLease
  | listMine
  | detach
  | resetPort
  -- the request in hand: supervisor requests (chapters 1, 5, 8 and 9)
  | status
  | readLease
  | readResource
  | readQueue
  | readWait
  | revoke
  | revokeResource
  | purgeClient
  | setTimebase
  | activate
  | cancelActivation
  | storeStageProgramEntry
  | storeStageErasePage
  | storeStageEraseDirectory
  | storeStageBlankCheck
  | storeStageScanCrc
  | storeStageWriteSettings
  | storeStageInitHeader
  | storeLaunch
  | storeDiscard
  | storeClear
  | storeRead
  | restart (done : Quirks)
  -- ticks and what they end (R75, R79, R49, R67, R81, R88, R50, R69)
  | tick (periods : Nat)
  | leaseTableTick
  | waitPoolTick (order : List WaitNo)
  | pendingUpgradesTick (order : List ResNo)
  | leaseExpiry (i : SlotNo)
  | graceEnd (i : SlotNo)
  | waitTimeout (j : WaitNo)
  | upgradeTimeout (n : ResNo)
  -- the grant rule's parts (R60, R68, R14)
  | grantFromQueue (n : ResNo)
  | upgradeGrant (n : ResNo)
  | activationApplication (n : ResNo)
  -- notices and dispatch (R114, R123, R108)
  | owedNoticeDelivery (p : CPort)
  | heldNoticeDelivery
  | dispatch
  -- completions of store operations (R141 to R146)
  | programEntryComplete (phys : Quirks)
  | erasePageComplete (phys : Quirks)
  | eraseDirectoryComplete (phys : Quirks)
  | blankCheckComplete
  | scanCrcComplete
  | writeSettingsComplete (phys : Quirks)
  | initHeaderComplete (phys : Quirks)
  | launchedCommandStart
  deriving DecidableEq, Repr

end Sys2Proof
end

