-- ==== Sys2Proof/WellFormed.lean ====
section
/-! DEFINITION. Which commands can come: a transaction of a kind has shifted in its kind byte, an unknown
kind byte is none of the three known ones, and a physical outcome covers no more than an operation can
touch. `exec` gives every command a meaning, well-formed or not. -/

namespace Sys2Proof

/-- The three transaction kind bytes (chapter 11.1). -/
def kindBytes : List Byte := [0x02#8, 0x03#8, 0x05#8]

/-- No operation makes more than 16 erases and programs (ERASE_DIRECTORY, R143), and none covers more
than a directory page of 384 bytes (R135). -/
def Quirks.bounded (q : Quirks) : Bool :=
  decide (q.length ≤ 16) && q.all fun o => (o.getD []).length ≤ 384

/-- A whole transaction is of a kind when its kind byte is complete, after 8 SCK periods (R101); one that has begun
may end before. -/
def Edge.bitsOk (e : Edge) (bits : Nat) : Bool := decide (e ≠ .whole) || decide (8 ≤ bits)

/-- The commands that can come. -/
def Instr.wellFormed : Instr → Bool
  | .resetAssert q | .powerLoss q | .restart q => q.bounded
  | .startUpComplete r => r.phys.bounded
  | .programEntryComplete q | .erasePageComplete q | .eraseDirectoryComplete q => q.bounded
  | .writeSettingsComplete q | .initHeaderComplete q => q.bounded
  | .readTransaction _ e bits | .statusTransaction _ e bits => e.bitsOk bits
  | .unknownKindTransaction _ e kind bits => e.bitsOk bits && !kindBytes.contains kind
  | .tick periods => decide (0 < periods)
  | .waitPoolTick order => decide order.Nodup
  | .pendingUpgradesTick order => decide order.Nodup
  | .powerOn | .resetRelease | .writeTransaction _ _ _ | .unknownRequestKind => true
  | .acquire | .cancelWait | .release | .renew | .upgrade | .cancelUpgrade | .downgrade => true
  | .verify | .queryResource | .queryLease | .listMine | .detach | .resetPort => true
  | .status | .readLease | .readResource | .readQueue | .readWait => true
  | .revoke | .revokeResource | .purgeClient | .setTimebase | .activate | .cancelActivation => true
  | .storeStageProgramEntry | .storeStageErasePage | .storeStageEraseDirectory => true
  | .storeStageBlankCheck | .storeStageScanCrc | .storeStageWriteSettings => true
  | .storeStageInitHeader | .storeLaunch | .storeDiscard | .storeClear | .storeRead => true
  | .leaseTableTick | .leaseExpiry _ | .graceEnd _ | .waitTimeout _ | .upgradeTimeout _ => true
  | .grantFromQueue _ | .upgradeGrant _ | .activationApplication _ => true
  | .owedNoticeDelivery _ | .heldNoticeDelivery | .dispatch => true
  | .blankCheckComplete | .scanCrcComplete | .launchedCommandStart => true

end Sys2Proof
end

