-- ==== Sys2Proof/Machine/State.lean ====
section
/-! DEFINITION. The state of the LT128 as plain data: every table, record, queue, flag and register of the
spec, and the queue of waiting commands. -/

namespace Sys2Proof.Machine

/-- Chapter 10.1. -/
inductive PartState where
  | starting | ready | spent | faulted
  deriving DecidableEq, Repr

/-- A header page of the array (R135). -/
inductive HPage where
  | h0 | h1
  deriving DecidableEq, Repr

/-- The mode of a lease or of a request. -/
inductive Mode where
  | shared | exclusive
  deriving DecidableEq, Repr

/-- A client: port and tag (00, Conventions). -/
structure Client where
  port : CPort
  tag : Fin 8
  deriving DecidableEq, Repr

/-- A fence, epoch.sequence (chapter 2.5). -/
structure Fence where
  epoch : Nat
  seq : Nat
  deriving DecidableEq, Repr

/-- A wait remaining or an upgrade deadline: ticks, or indefinite (Tables 2-3 and 3-1). -/
inductive Limit where
  | ticks (n : Nat)
  | indefinite
  deriving DecidableEq, Repr

/-- Detach policy of a client port (R100). -/
inductive Policy where
  | release | orphan
  deriving DecidableEq, Repr

/-! ### Working directory (Table 1-1) -/

/-- Whether SHARED leases may be granted. -/
inductive ResKind where
  | exclusiveOnly | shareable
  deriving DecidableEq, Repr

/-- Whether a holder may renew while others wait. -/
inductive Contention where
  | hold | yields
  deriving DecidableEq, Repr

/-- The fields of a DEFINED entry. `admitSet` has one bit a client port, bit 0 port A (Table 11-7). -/
structure Fields where
  kind : ResKind
  holderLimit : Nat
  admitSet : BitVec 4
  defaultTerm : Nat
  maxTerm : Nat
  warnLead : Nat
  grace : Nat
  renewLimit : Nat
  contention : Contention
  waitAllowed : Bool
  label : Option (List Byte)
  deriving DecidableEq, Repr

/-- A working directory entry: fields only when DEFINED (chapter 1.2). -/
inductive Entry where
  | undefined
  | defined (f : Fields)
  | damaged
  deriving DecidableEq, Repr

/-- A resource record (Table 1-2). Mode held is `State.modeHeld`, computed from the holders (R5). -/
structure Record where
  holders : List SlotNo
  queue : List WaitNo
  upgradePending : Option SlotNo
  lastSeq : Nat
  fenceSpent : Bool
  activationPending : Bool
  deriving DecidableEq, Repr

/-- The empty record of a start-up (R4). -/
def Record.empty : Record :=
  { holders := [], queue := [], upgradePending := none, lastSeq := 0, fenceSpent := false,
    activationPending := false }

/-- Table 1-3; an APPLIED entry keeps the count of waits removed (R9). -/
inductive ActState where
  | pending
  | applied (waitsRemoved : Nat)
  deriving DecidableEq, Repr

/-- An entry of the activation list (R9), with the captured image's CRC-16 (R124). -/
structure Activation where
  resource : ResNo
  image : Entry
  crc : BitVec 16
  revoke : Bool
  state : ActState
  deriving DecidableEq, Repr

/-! ### Lease table (Tables 2-1 and 2-3) -/

/-- Why a pending upgrade ended (R111). -/
inductive UpgradeEndCause where
  | timeout | superseded
  deriving DecidableEq, Repr

/-- The owed notice of a slot with its owed detail (Table 2-3, R111). -/
inductive Owed where
  | leaseEnded
  | granted (rid : Byte)
  | upgraded
  | revokeNotice
  | upgradeEnded (cause : UpgradeEndCause)
  | expiryWarning
  deriving DecidableEq, Repr

/-- The fields that ACTIVE, REVOKING and ENDED slots share (Table 2-3). -/
structure Lease where
  resource : ResNo
  client : Client
  mode : Mode
  fence : Fence
  granted : Nat
  remaining : Nat
  renewals : Nat
  warned : Bool
  owed : Option Owed
  deriving DecidableEq, Repr

/-- The fields of a RESERVED slot (Table 2-3). -/
structure Reservation where
  resource : ResNo
  client : Client
  mode : Mode
  term : Nat
  deriving DecidableEq, Repr

/-- The end cause of an ENDED slot (Table 2-3). -/
inductive EndCause where
  | expired | revoked
  deriving DecidableEq, Repr

/-- A slot's state with the fields present in it (R19). -/
inductive SlotBody where
  | free
  | reserved (r : Reservation)
  | active (l : Lease) (deadline : Option Limit)
  | revoking (l : Lease) (grace : Nat)
  | ended (l : Lease) (grace : Option Nat) (cause : EndCause)
  deriving DecidableEq, Repr

/-- A lease slot: the generation is present in every state. -/
structure Slot where
  generation : Byte
  body : SlotBody
  deriving DecidableEq, Repr

/-! ### Wait pool (Tables 3-1 and 3-2) -/

/-- The fields that QUEUED and ENDED wait entries share. -/
structure Wait where
  client : Client
  resource : ResNo
  mode : Mode
  rid : Byte
  deriving DecidableEq, Repr

/-- The end cause of an ENDED wait entry. -/
inductive WaitCause where
  | timeout | refused | withdrawn | fenceSpent
  deriving DecidableEq, Repr

/-- A wait entry's state with the fields present in it. -/
inductive WaitEntry where
  | free
  | queued (w : Wait) (remaining : Limit) (slot : SlotNo)
  | ended (w : Wait) (cause : WaitCause)
  deriving DecidableEq, Repr

/-! ### Ports (Table 7-1) -/

/-- A request message as it stands in a FIFO. -/
abbrev Frame := List Byte

/-- An outbound message: its four header bytes and the bytes after them (chapter 11.3). -/
structure Message where
  isNotice : Bool
  code : Byte
  tag : Byte
  rid : Byte
  status : Byte
  body : List Byte
  deriving DecidableEq, Repr

/-- The kinds of transaction (Table 7-2). -/
inductive TransKind where
  | write | read | status | unknown
  deriving DecidableEq, Repr

/-- A transaction in progress: the captured status word, whether its first byte has been reported, whether a READ has
fixed its message, that message, and whether it is still the head of the queue (R101, R102, R104). -/
structure Transfer where
  kind : TransKind
  word1 : Byte
  word2 : Byte
  reported : Bool
  fixed : Bool
  sending : Option Message
  headStill : Bool
  deriving DecidableEq, Repr

/-- The state every port unit holds. `sdo` is the model's record of what SDOx shifted out in the last
completed transaction (log 9). -/
structure PortUnit where
  fifo : List Frame
  queue : List Message
  reserved : Bool
  overrun : Bool
  frameError : Bool
  restarted : Bool
  transfer : Option Transfer
  sdo : List Byte
  deriving DecidableEq, Repr

/-- A record that can owe a notice (R112). -/
inductive Ref where
  | slot (i : SlotNo)
  | wait (j : WaitNo)
  deriving DecidableEq, Repr

/-- The state that client ports hold beyond the common part. -/
structure ClientSide where
  owed : List Ref
  policy : Policy
  deriving DecidableEq, Repr

/-- The request in hand: the port it was taken from, and its frame (R108). -/
structure Request where
  port : PortId
  frame : Frame
  deriving DecidableEq, Repr

/-! ### Timebase and store -/

/-- Chapter 5.1. -/
inductive RunState where
  | run | frozen
  deriving DecidableEq, Repr

/-- The settings of a header page (chapter 10.2). -/
structure Settings where
  prescale : Nat
  polA : Policy
  polB : Policy
  polC : Policy
  polD : Policy
  deriving DecidableEq, Repr

/-- A store operation with its operands (chapter 9.2.1); `blankCheck none` is BLANK_CHECK(ALL). -/
inductive StoreOp where
  | programEntry (n : ResNo) (image : List Byte)
  | erasePage (p : PageNo)
  | eraseDirectory
  | blankCheck (p : Option PageNo)
  | scanCrc
  | writeSettings (s : Settings)
  | initHeader (base : Nat)
  deriving DecidableEq, Repr

/-- The stage (chapter 9.2). -/
inductive Stage where
  | empty
  | held (op : StoreOp)
  | launched (op : StoreOp)
  deriving DecidableEq, Repr

/-- The sticky fault (chapter 9.2). -/
inductive StoreFault where
  | notBlank | verifyFailed | eraseFailed | headerFailed
  deriving DecidableEq, Repr

/-- The directory store's pipeline (chapter 9.2). -/
structure Store where
  running : Option StoreOp
  stage : Stage
  fault : Option StoreFault
  held : List Message
  deriving DecidableEq, Repr

/-! ### The machine -/

/-- No command of the LT128 stops the model with a fault: the spec gives every command its effect, and
the part's own faults are state. Nobody raises one, which is safe. -/
inductive Fault where
  deriving DecidableEq, Repr

/-- The refusals. -/
inductive Refusal where
  /-- Raised by `exec` alone, for a command without a meaning: no arm raises it (safe). -/
  | notModelled (mnemonic : String)
  deriving DecidableEq, Repr

/-- The state of the LT128. INVENTORY.md names each field's rule and reset value. -/
structure State where
  powered : Bool
  resetLow : Bool
  part : PartState
  epoch : Nat
  active : Option HPage
  ports : Vector PortUnit 5
  sides : Vector ClientSide 4
  rotation : PortId
  engine : Option Request
  entries : Vector Entry 256
  records : Vector Record 256
  activations : List Activation
  slots : Vector Slot 128
  waits : Vector WaitEntry 48
  prescale : Nat
  run : RunState
  divider : Nat
  leaseTicks : Nat
  waitTicks : Nat
  upgradeTicks : Nat
  store : Store
  array : List Host.Cell
  pending : List Instr
  deriving DecidableEq, Repr

/-- A port unit as power-on leaves it (R100; log 5). -/
def PortUnit.initial : PortUnit :=
  { fifo := [], queue := [], reserved := false, overrun := false, frameError := false,
    restarted := false, transfer := none, sdo := [] }

/-- A client side as power-on leaves it (R100; log 5). -/
def ClientSide.initial : ClientSide := { owed := [], policy := .release }

/-- A slot at start-up: FREE with generation 0 (R20). -/
def Slot.initial : Slot := { generation := 0#8, body := .free }

/-- The store at start-up (R136). -/
def Store.initial : Store := { running := none, stage := .empty, fault := none, held := [] }

/-- The part just after power-on with RESET# high: a start-up has begun (R149). The values the spec does
not state are named in log 4, 5 and 20. -/
def State.reset : State :=
  { powered := true
    resetLow := false
    part := .starting
    epoch := 0
    active := none
    ports := Vector.replicate 5 PortUnit.initial
    sides := Vector.replicate 4 ClientSide.initial
    rotation := .sup
    engine := none
    entries := Vector.replicate 256 .undefined
    records := Vector.replicate 256 Record.empty
    activations := []
    slots := Vector.replicate 128 Slot.initial
    waits := Vector.replicate 48 .free
    prescale := Config.defaultPrescale
    run := .run
    divider := 0
    leaseTicks := 0
    waitTicks := 0
    upgradeTicks := 0
    store := Store.initial
    array := []
    pending := [] }

end Sys2Proof.Machine
end

