-- ==== Sys2Proof/Machine/Bytes.lean ====
section
/-! DEFINITION. Byte order and the two checks: CRC-8 of transfers and CRC-16 of stored images. -/

namespace Sys2Proof.Machine

/-- One byte from a number below 256. -/
def byteOf (n : Nat) : Byte := BitVec.ofNat 8 n

/-- Two bytes, most significant first (chapter 11). -/
def be16 (n : Nat) : List Byte := [byteOf (n / 256), byteOf n]

/-- The number two bytes give, most significant first (chapter 11). -/
def ofBe16 (hi lo : Byte) : Nat := hi.toNat * 256 + lo.toNat

/-- NO is 00h and YES is 01h (Tables 11-1 and 11-4; log 17). -/
def flagByte (b : Bool) : Byte := if b then 0x01#8 else 0x00#8

/-- The list cut or filled with 00h to `n` bytes. -/
def padTo : Nat → List Byte → List Byte
  | 0, _ => []
  | n + 1, [] => 0x00#8 :: padTo n []
  | n + 1, b :: bs => b :: padTo n bs

/-- Fields of the widths, one after another: each is copied where the bytes hold it, and is 00h in every byte where
they are too short to hold it (R157; log 15). -/
def echoFields : List Nat → List Byte → List Byte
  | [], _ => []
  | w :: ws, bs => (if w ≤ bs.length then bs.take w else padTo w []) ++ echoFields ws (bs.drop w)

/-- Byte `i` of a list, 00h beyond its end. -/
def byteAt : List Byte → Nat → Byte
  | [], _ => 0x00#8
  | b :: _, 0 => b
  | _ :: bs, i + 1 => byteAt bs i

/-- One shift of a CRC register, most significant bit first. -/
def crcShift {w : Nat} (poly c : BitVec w) : BitVec w :=
  if c.msb then (c <<< 1) ^^^ poly else c <<< 1

/-- Eight shifts. -/
def crcShift8 {w : Nat} (poly c : BitVec w) : BitVec w :=
  crcShift poly <| crcShift poly <| crcShift poly <| crcShift poly <|
    crcShift poly <| crcShift poly <| crcShift poly <| crcShift poly c

/-- CRC-8 of a transfer: polynomial 07h, initial value 00h, no inversion (chapter 11.1). -/
def crc8 (bs : List Byte) : Byte :=
  bs.foldl (fun c b => crcShift8 0x07#8 (c ^^^ b)) 0x00#8

/-- CRC-16 of an image: polynomial 1021h, initial value FFFFh, no inversion (R160). -/
def crc16 (bs : List Byte) : BitVec 16 :=
  bs.foldl (fun c b => crcShift8 0x1021#16 (c ^^^ (BitVec.setWidth 16 b <<< (8 : Nat)))) 0xFFFF#16

/-- The CRC-16 as it is stored, high byte first (R160). -/
def crc16Bytes (bs : List Byte) : List Byte := be16 (crc16 bs).toNat

end Sys2Proof.Machine
end

