-- ==== Sys2Proof/Machine/Array.lean ====
section
/-! DEFINITION. The non-volatile array of the directory store (R135): a canonical list of the bytes that
are not erased, and what an erase or a program physically does to it. -/

namespace Sys2Proof.Machine

/-- An unlisted address reads erased (R135). -/
def Memory.read : List Host.Cell → Nat → Byte
  | [], _ => Config.erased
  | (k, v) :: t, a => if a = k then v else if a < k then Config.erased else Memory.read t a

/-- Writing keeps the addresses rising, and writing the erased value removes the entry. -/
def Memory.write : List Host.Cell → Nat → Byte → List Host.Cell
  | [], a, b => if b = Config.erased then [] else [(a, b)]
  | (k, v) :: t, a, b =>
    if a = k then (if b = Config.erased then t else (a, b) :: t)
    else if a < k then (if b = Config.erased then (k, v) :: t else (a, b) :: (k, v) :: t)
    else (k, v) :: Memory.write t a b

/-- `len` bytes from address `a`. -/
def Memory.readBytes (m : List Host.Cell) : Nat → Nat → List Byte
  | _, 0 => []
  | a, len + 1 => Memory.read m a :: Memory.readBytes m (a + 1) len

/-- A run of bytes written from address `a`. -/
def Memory.writeBytes : List Host.Cell → Nat → List Byte → List Host.Cell
  | m, _, [] => m
  | m, a, b :: bs => Memory.writeBytes (Memory.write m a b) (a + 1) bs

/-- Every byte of the range erased (R135). -/
def Memory.eraseRange (m : List Host.Cell) (a len : Nat) : List Host.Cell :=
  m.filter fun c => decide (c.1 < a) || decide (a + len ≤ c.1)

/-- The array has 16 directory pages of 384 bytes and two header pages (R135; log 4). -/
def Memory.size : Nat := 16 * (16 * Config.imageBytes) + 2 * Config.headerBytes

/-- The canonical form: addresses strictly rising and inside the array, no entry erased. -/
abbrev Memory.wf (m : List Host.Cell) : Prop :=
  (m.map Prod.fst).Pairwise (· < ·) ∧ ∀ c ∈ m, c.2 ≠ Config.erased ∧ c.1 < Memory.size

/-! ### Where things stand (R135, Table 11-8; log 4) -/

/-- Address of the image of entry `n`: page n div 16, 24 bytes an image. -/
def entryAddr (n : ResNo) : Nat := Config.imageBytes * n.val

/-- Bytes of a directory page. -/
def pageBytes : Nat := 16 * Config.imageBytes

/-- Address of directory page `p`. -/
def pageAddr (p : PageNo) : Nat := pageBytes * p.val

/-- Address of a header page. -/
def headerAddr : HPage → Nat
  | .h0 => 16 * pageBytes
  | .h1 => 16 * pageBytes + Config.headerBytes

/-- The directory page of entry `n` (chapter 1.1). -/
def pageOf (n : ResNo) : Nat := n.val / 16

/-- The other header page. -/
def HPage.other : HPage → HPage
  | .h0 => .h1
  | .h1 => .h0

/-- The 24 stored bytes of entry `n`. -/
def imageOf (m : List Host.Cell) (n : ResNo) : List Byte :=
  Memory.readBytes m (entryAddr n) Config.imageBytes

/-- All bytes erased (R135). -/
def blank (bs : List Byte) : Bool := bs.all fun b => b = Config.erased

/-! ### Erasing and programming (R135; log 6) -/

/-- The array's physical actions. -/
inductive ArrayAct where
  | erase (addr len : Nat)
  | program (addr : Nat) (bytes : List Byte)
  deriving DecidableEq, Repr

/-- The bytes an erase that went wrong leaves: it takes bits to the erased value only. -/
def erasedWith (m : List Host.Cell) : Nat → Nat → List Byte → List Byte
  | _, 0, _ => []
  | a, len + 1, [] => Config.erased :: erasedWith m (a + 1) len []
  | a, len + 1, g :: gs => (Memory.read m a ||| g) :: erasedWith m (a + 1) len gs

/-- The bytes a program leaves: it takes erased bits to the programmed value only (R135). -/
def programmedWith (m : List Host.Cell) : Nat → Nat → List Byte → List Byte
  | _, 0, _ => []
  | a, len + 1, [] => Memory.read m a :: programmedWith m (a + 1) len []
  | a, len + 1, g :: gs => (Memory.read m a &&& g) :: programmedWith m (a + 1) len gs

/-- An action on the array, as intended (`none`) or as the array did it. -/
def ArrayAct.run (m : List Host.Cell) : ArrayAct → Option (List Byte) → List Host.Cell
  | .erase a len, none => Memory.eraseRange m a len
  | .erase a len, some g => Memory.writeBytes m a (erasedWith m a len g)
  | .program a bs, none => Memory.writeBytes m a (programmedWith m a bs.length bs)
  | .program a bs, some g => Memory.writeBytes m a (programmedWith m a bs.length g)

/-- The read-back: an erase reads back blank, a program what was meant (R142 to R146, R152). -/
def ArrayAct.readsBack (m : List Host.Cell) : ArrayAct → Bool
  | .erase a len => blank (Memory.readBytes m a len)
  | .program a bs => decide (Memory.readBytes m a bs.length = bs)

end Sys2Proof.Machine
end

