-- ==== Sys2Proof/Machine/Access.lean ====
section
/-! DEFINITION. Reads and writes of the state's parts: every table, port and record has one home, and
these are the ways to it. -/

namespace Sys2Proof

/-- Port code of a client port (chapter 11). -/
def CPort.code : CPort → Nat
  | .a => 0
  | .b => 1
  | .c => 2
  | .d => 3

/-- Place of a client port in the tables. -/
def CPort.index : CPort → Fin 4
  | .a => 0
  | .b => 1
  | .c => 2
  | .d => 3

/-- Place of a port in the tables. -/
def PortId.index : PortId → Fin 5
  | .client .a => 0
  | .client .b => 1
  | .client .c => 2
  | .client .d => 3
  | .sup => 4

end Sys2Proof

namespace Sys2Proof.Machine

/-- The client ports in their order. -/
def allClientPorts : List CPort := [.a, .b, .c, .d]

/-- The ports in the dispatcher's cyclic order (R108). -/
def allPorts : List PortId := [.client .a, .client .b, .client .c, .client .d, .sup]

/-- All slots, wait entries and resources, ascending. -/
def allSlots : List SlotNo := List.finRange 128
def allWaits : List WaitNo := List.finRange 48
def allResources : List ResNo := List.finRange 256

/-- A vector changed at every place. -/
def vmap {α β : Type} {n : Nat} (f : α → β) (v : Vector α n) : Vector β n :=
  ⟨⟨v.toList.map f⟩, by simp⟩

def State.port (s : State) (p : PortId) : PortUnit := s.ports.get p.index
def State.setPort (s : State) (p : PortId) (u : PortUnit) : State :=
  { s with ports := s.ports.set p.index u }

def State.side (s : State) (p : CPort) : ClientSide := s.sides.get (p.index)
def State.setSide (s : State) (p : CPort) (v : ClientSide) : State :=
  { s with sides := s.sides.set (p.index) v }

def State.entry (s : State) (n : ResNo) : Entry := s.entries.get n
def State.setEntry (s : State) (n : ResNo) (e : Entry) : State :=
  { s with entries := s.entries.set n e }

def State.record (s : State) (n : ResNo) : Record := s.records.get n
def State.setRecord (s : State) (n : ResNo) (r : Record) : State :=
  { s with records := s.records.set n r }

def State.slot (s : State) (i : SlotNo) : Slot := s.slots.get i
def State.setSlot (s : State) (i : SlotNo) (v : Slot) : State :=
  { s with slots := s.slots.set i v }

def State.wait (s : State) (j : WaitNo) : WaitEntry := s.waits.get j
def State.setWait (s : State) (j : WaitNo) (w : WaitEntry) : State :=
  { s with waits := s.waits.set j w }

def State.setStore (s : State) (st : Store) : State := { s with store := st }
def State.setActivations (s : State) (l : List Activation) : State := { s with activations := l }
def State.setEngine (s : State) (r : Option Request) : State := { s with engine := r }

/-- The slot's body replaced, its generation kept (R23). -/
def State.setBody (s : State) (i : SlotNo) (b : SlotBody) : State :=
  s.setSlot i { s.slot i with body := b }

/-- The slot becomes FREE and its generation advances, 255 being followed by 0 (R23). -/
def State.freeSlot (s : State) (i : SlotNo) : State :=
  s.setSlot i { generation := (s.slot i).generation + 1, body := .free }

/-! ### Reading slots and waits -/

/-- The lease of a slot in ACTIVE, REVOKING or ENDED. -/
def SlotBody.lease? : SlotBody → Option Lease
  | .free | .reserved _ => none
  | .active l _ | .revoking l _ | .ended l _ _ => some l

/-- The lease of a holder: a slot in ACTIVE or REVOKING (Table 2-1). -/
def SlotBody.live? : SlotBody → Option Lease
  | .free | .reserved _ | .ended _ _ _ => none
  | .active l _ | .revoking l _ => some l

/-- The same state with the lease changed. -/
def SlotBody.mapLease (f : Lease → Lease) : SlotBody → SlotBody
  | .free => .free
  | .reserved r => .reserved r
  | .active l d => .active (f l) d
  | .revoking l g => .revoking (f l) g
  | .ended l g c => .ended (f l) g c

/-- The client of a slot that is not FREE. -/
def SlotBody.client? : SlotBody → Option Client
  | .free => none
  | .reserved r => some r.client
  | .active l _ | .revoking l _ | .ended l _ _ => some l.client

/-- The grace remaining where the state has one (Table 2-3). -/
def SlotBody.grace? : SlotBody → Option Nat
  | .free | .reserved _ | .active _ _ => none
  | .revoking _ g => some g
  | .ended _ g _ => g

/-- The upgrade deadline removed (R69). -/
def SlotBody.dropDeadline : SlotBody → SlotBody
  | .active l _ => .active l none
  | .free => .free
  | .reserved r => .reserved r
  | .revoking l g => .revoking l g
  | .ended l g c => .ended l g c

/-- The client of a wait entry that is not FREE. -/
def WaitEntry.info? : WaitEntry → Option Wait
  | .free => none
  | .queued w _ _ | .ended w _ => some w

/-- The wait of a QUEUED entry. -/
def WaitEntry.queued? : WaitEntry → Option Wait
  | .free | .ended _ _ => none
  | .queued w _ _ => some w

/-- The slot counts toward the client's 16 (Table 2-1). -/
def Slot.countsFor (v : Slot) (c : Client) : Bool :=
  match v.body with
  | .reserved r => decide (r.client = c)
  | .active l _ | .revoking l _ => decide (l.client = c)
  | .free | .ended _ _ _ => false

/-- Mode held follows the holder list (R5; log 13). -/
def State.modeHeld (s : State) (n : ResNo) : Option Mode :=
  match (s.record n).holders with
  | [] => none
  | hs =>
    if hs.any fun i => ((s.slot i).body.live?.map Lease.mode) = some .exclusive then some .exclusive
    else some .shared

/-- The fields of a DEFINED entry; in every other state, which no run reaches with a holder, fields that
allow nothing (log 24). -/
def Entry.fieldsD : Entry → Fields
  | .defined f => f
  | .undefined | .damaged =>
    { kind := .exclusiveOnly, holderLimit := 1, admitSet := 0#4, defaultTerm := 1, maxTerm := 1,
      warnLead := 0, grace := 0, renewLimit := 0, contention := .hold, waitAllowed := false,
      label := none }

/-- The set of admitted ports holds the port (Table 11-7). -/
def Fields.admits (f : Fields) (p : CPort) : Bool := f.admitSet.getLsbD (p.code)

/-- Table 1-3: the entry is PENDING for resource `n`. -/
def Activation.pendingFor (a : Activation) (n : ResNo) : Bool :=
  decide (a.resource = n) && decide (a.state = .pending)

/-- An APPLIED entry, whose notice has not entered the queue (Table 1-3). -/
def Activation.isApplied (a : Activation) : Bool :=
  match a.state with
  | .pending => false
  | .applied _ => true

/-- The supply is present and RESET# is high: otherwise nothing proceeds (R149). -/
def State.alive (s : State) : Bool := s.powered && !s.resetLow

/-- The part proceeds and is not STARTING: no request is carried out, no tick comes and no store operation
runs while it is (R76, R122, R136). -/
def State.serving (s : State) : Bool := s.alive && decide (s.part ≠ .starting)

end Sys2Proof.Machine
end

