-- ==== Sys2Proof/Machine/Operands.lean ====
section
/-! DEFINITION. The codes of chapter 11: statuses, request kinds, operands of a frame, directory images
and header settings, read from bytes and written as bytes. -/

namespace Sys2Proof.Machine

/-- The response statuses. -/
inductive Status where
  | ok | granted | queued | upgraded | busy | current | stale | neverIssued | priorEpoch
  | badRequest | partFaulted | epochSpent | noResource | damaged | notAdmitted | modeNotAllowed
  | alreadyHolder | alreadyWaiting | fenceSpent | capReached | waitLimit | tableFull | noWaitSpace
  | notWaiting | noUpgrade | notPending | staleHandle | notOwner | revoking | superseding
  | renewLimit | contended | upgradeConflict | notShared | notExclusive
  | activated | pending | listFull | storeBusy | storeFaulted | stageFull | nothingStaged
  | stageLaunched | badImage | badOperand | notPermitted
  deriving DecidableEq, Repr

/-- Table 11-6. -/
def Status.code : Status → Byte
  | .ok => 0x00#8 | .granted => 0x01#8 | .queued => 0x02#8 | .upgraded => 0x03#8 | .busy => 0x04#8
  | .current => 0x05#8 | .stale => 0x06#8 | .neverIssued => 0x07#8 | .priorEpoch => 0x08#8
  | .badRequest => 0x10#8 | .partFaulted => 0x11#8 | .epochSpent => 0x12#8 | .noResource => 0x13#8
  | .damaged => 0x14#8 | .notAdmitted => 0x15#8 | .modeNotAllowed => 0x16#8
  | .alreadyHolder => 0x17#8 | .alreadyWaiting => 0x18#8 | .fenceSpent => 0x19#8
  | .capReached => 0x1A#8 | .waitLimit => 0x1B#8 | .tableFull => 0x1C#8 | .noWaitSpace => 0x1D#8
  | .notWaiting => 0x20#8 | .noUpgrade => 0x21#8 | .notPending => 0x22#8 | .staleHandle => 0x23#8
  | .notOwner => 0x24#8 | .revoking => 0x25#8 | .superseding => 0x26#8 | .renewLimit => 0x27#8
  | .contended => 0x28#8 | .upgradeConflict => 0x29#8 | .notShared => 0x2A#8
  | .notExclusive => 0x2B#8 | .activated => 0x30#8 | .pending => 0x31#8 | .listFull => 0x32#8
  | .storeBusy => 0x33#8 | .storeFaulted => 0x34#8 | .stageFull => 0x35#8
  | .nothingStaged => 0x36#8 | .stageLaunched => 0x37#8 | .badImage => 0x38#8
  | .badOperand => 0x39#8 | .notPermitted => 0x3A#8

/-- A request kind: its code and length (Table 11-1) and the widths of the "always" fields its response copies
from the frame, from byte 4 on (Table 11-3, R157). -/
structure Kind where
  code : Byte
  len : Nat
  always : List Nat
  deriving DecidableEq, Repr

def Kind.acquire : Kind := ⟨0x01#8, 10, [1]⟩
def Kind.cancelWait : Kind := ⟨0x02#8, 5, [1]⟩
def Kind.release : Kind := ⟨0x03#8, 6, [2]⟩
def Kind.renew : Kind := ⟨0x04#8, 8, [2]⟩
def Kind.upgrade : Kind := ⟨0x05#8, 8, [2]⟩
def Kind.cancelUpgrade : Kind := ⟨0x06#8, 6, [2]⟩
def Kind.downgrade : Kind := ⟨0x07#8, 6, [2]⟩
def Kind.verify : Kind := ⟨0x08#8, 9, [1, 4]⟩
def Kind.queryResource : Kind := ⟨0x09#8, 5, []⟩
def Kind.queryLease : Kind := ⟨0x0A#8, 6, []⟩
def Kind.listMine : Kind := ⟨0x0B#8, 4, []⟩
def Kind.detach : Kind := ⟨0x0C#8, 4, []⟩
def Kind.resetPort : Kind := ⟨0x0D#8, 4, []⟩
def Kind.status : Kind := ⟨0x20#8, 4, []⟩
def Kind.readLease : Kind := ⟨0x21#8, 5, []⟩
def Kind.readResource : Kind := ⟨0x22#8, 5, []⟩
def Kind.readQueue : Kind := ⟨0x23#8, 6, []⟩
def Kind.readWait : Kind := ⟨0x24#8, 5, []⟩
def Kind.revoke : Kind := ⟨0x25#8, 8, [2]⟩
def Kind.revokeResource : Kind := ⟨0x26#8, 7, [1]⟩
def Kind.purgeClient : Kind := ⟨0x27#8, 6, []⟩
def Kind.setTimebase : Kind := ⟨0x28#8, 6, []⟩
def Kind.activate : Kind := ⟨0x29#8, 6, [1]⟩
def Kind.cancelActivation : Kind := ⟨0x2A#8, 5, [1]⟩
def Kind.storeLaunch : Kind := ⟨0x2C#8, 4, []⟩
def Kind.storeDiscard : Kind := ⟨0x2D#8, 4, []⟩
def Kind.storeClear : Kind := ⟨0x2E#8, 4, []⟩
def Kind.storeRead : Kind := ⟨0x2F#8, 5, [1]⟩
def Kind.restart : Kind := ⟨0x30#8, 4, []⟩

/-- STORE_STAGE with the length of one operation (Table 11-2). -/
def Kind.storeStage (len : Nat) : Kind := ⟨0x2B#8, len, []⟩

/-- The kind byte names a kind of the port's set (R157). -/
def knownKind (p : PortId) (code : Byte) : Bool :=
  match p with
  | .client _ => decide (1 ≤ code.toNat) && decide (code.toNat ≤ 0x0D)
  | .sup => decide (0x20 ≤ code.toNat) && decide (code.toNat ≤ 0x30)

/-! ### Operands of a frame (Table 11-1, R158) -/

/-- Two bytes of the frame as a number. -/
def Frame.word (f : Frame) (i : Nat) : Nat := ofBe16 (byteAt f i) (byteAt f (i + 1))

/-- A resource byte takes every value (R158). -/
def resOf (b : Byte) : ResNo := ⟨b.toNat, b.isLt⟩

/-- A slot above 127 is malformed (R24). -/
def slotOf? (b : Byte) : Option SlotNo :=
  if h : b.toNat < 128 then some ⟨b.toNat, h⟩ else none

/-- A wait entry above 47 is malformed (R128). -/
def waitOf? (b : Byte) : Option WaitNo :=
  if h : b.toNat < 48 then some ⟨b.toNat, h⟩ else none

/-- A tag above 7 is malformed (R158). -/
def tagOf? (b : Byte) : Option (Fin 8) :=
  if h : b.toNat < 8 then some ⟨b.toNat, h⟩ else none

/-- A directory page above 15 is none (R158). -/
def pageOf? (b : Byte) : Option PageNo :=
  if h : b.toNat < 16 then some ⟨b.toNat, h⟩ else none

/-- Port codes (chapter 11). -/
def portOf? (b : Byte) : Option CPort :=
  if b = 0x00#8 then some .a
  else if b = 0x01#8 then some .b
  else if b = 0x02#8 then some .c
  else if b = 0x03#8 then some .d
  else none

/-- Mode codes (chapter 11). -/
def modeOf? (b : Byte) : Option Mode :=
  if b = 0x01#8 then some .shared else if b = 0x02#8 then some .exclusive else none

/-- NO and YES. -/
def flagOf? (b : Byte) : Option Bool :=
  if b = 0x00#8 then some false else if b = 0x01#8 then some true else none

/-- Detach policy codes (Table 11-2). -/
def policyOf? (b : Byte) : Option Policy :=
  if b = 0x00#8 then some .release else if b = 0x01#8 then some .orphan else none

/-- Run state codes (Table 11-1). -/
def runOf? (b : Byte) : Option RunState :=
  if b = 0x00#8 then some .run else if b = 0x01#8 then some .frozen else none

/-- A grace asked for: a number of ticks, or DEFAULT (`none`); malformed otherwise (R158). -/
def graceOf? (selector grace : Byte) : Option (Option Nat) :=
  if selector = 0x00#8 then some (some grace.toNat)
  else if selector = 0x01#8 ∧ grace = 0x00#8 then some none
  else none

/-- A wait limit: FFFFh means indefinite (chapter 11). -/
def limitOf (n : Nat) : Limit := if n = Config.last16 then .indefinite else .ticks n

/-! ### Codes of fields -/

def Mode.code : Mode → Byte
  | .shared => 0x01#8
  | .exclusive => 0x02#8

/-- Mode held: NONE is 00h (Table 11-4). -/
def heldCode : Option Mode → Byte
  | none => 0x00#8
  | some m => Mode.code m

/-- The client number (chapter 11). -/
def Client.number (c : Client) : Byte := byteOf (c.port.code * 8 + c.tag.val)

/-- An absent client is FFh (R159). -/
def clientByte : Option Client → Byte
  | none => 0xFF#8
  | some c => c.number

/-- An absent slot is FFh (R159). -/
def slotByte : Option SlotNo → Byte
  | none => 0xFF#8
  | some i => byteOf i.val

/-- An absent wait entry is FFh (R159). -/
def waitByte : Option WaitNo → Byte
  | none => 0xFF#8
  | some j => byteOf j.val

/-- A fence is the epoch and then the sequence (chapter 11). -/
def Fence.bytes (f : Fence) : List Byte := be16 f.epoch ++ be16 f.seq

/-- An absent fence is four bytes of 00h (R159). -/
def fenceBytes : Option Fence → List Byte
  | none => [0x00#8, 0x00#8, 0x00#8, 0x00#8]
  | some f => f.bytes

/-- A limit or deadline (chapter 11). -/
def Limit.word : Limit → Nat
  | .ticks n => n
  | .indefinite => Config.last16

/-- An absent upgrade deadline is 0000h (R159). -/
def limitBytes : Option Limit → List Byte
  | none => be16 0
  | some l => be16 l.word

/-- Directory state codes (Table 11-4). -/
def Entry.code : Entry → Byte
  | .undefined => 0x00#8
  | .defined _ => 0x01#8
  | .damaged => 0x02#8

/-- Slot state codes (chapter 11.3). -/
def SlotBody.code : SlotBody → Byte
  | .free => 0x00#8
  | .reserved _ => 0x01#8
  | .active _ _ => 0x02#8
  | .revoking _ _ => 0x03#8
  | .ended _ _ _ => 0x04#8

/-- Wait entry state codes (chapter 11.3). -/
def WaitEntry.code : WaitEntry → Byte
  | .free => 0x00#8
  | .queued _ _ _ => 0x01#8
  | .ended _ _ => 0x04#8

def EndCause.code : EndCause → Byte
  | .expired => 0x01#8
  | .revoked => 0x02#8

/-- LEASE_ENDED cause PURGED (Table 11-5). -/
def purgedLeaseCode : Byte := 0x03#8

def WaitCause.code : WaitCause → Byte
  | .timeout => 0x01#8
  | .refused => 0x02#8
  | .withdrawn => 0x03#8
  | .fenceSpent => 0x04#8

/-- WAIT_ENDED cause PURGED (Table 11-5). -/
def purgedWaitCode : Byte := 0x05#8

def UpgradeEndCause.code : UpgradeEndCause → Byte
  | .timeout => 0x01#8
  | .superseded => 0x03#8

def Policy.code : Policy → Byte
  | .release => 0x00#8
  | .orphan => 0x01#8

def RunState.code : RunState → Byte
  | .run => 0x00#8
  | .frozen => 0x01#8

/-- The status word's part-state bits, and the part state of STATUS and START_REPORT (chapter 11). -/
def PartState.code : PartState → Byte
  | .starting => 0x00#8
  | .ready => 0x01#8
  | .spent => 0x02#8
  | .faulted => 0x03#8

/-- STORE_DONE outcomes of the faults (Table 11-5). -/
def StoreFault.code : StoreFault → Byte
  | .notBlank => 0x01#8
  | .verifyFailed => 0x02#8
  | .eraseFailed => 0x03#8
  | .headerFailed => 0x04#8

/-- Operation codes (Table 11-2). -/
def StoreOp.code : StoreOp → Byte
  | .programEntry _ _ => 0x01#8
  | .erasePage _ => 0x02#8
  | .eraseDirectory => 0x03#8
  | .blankCheck _ => 0x04#8
  | .scanCrc => 0x05#8
  | .writeSettings _ => 0x06#8
  | .initHeader _ => 0x07#8

def HPage.code : HPage → Byte
  | .h0 => 0x00#8
  | .h1 => 0x01#8

/-! ### Directory images (R1, R160, Table 11-7) -/

def kindOf? (b : Byte) : Option ResKind :=
  if b = 0x01#8 then some .exclusiveOnly else if b = 0x02#8 then some .shareable else none

def contentionOf? (b : Byte) : Option Contention :=
  if b = 0x00#8 then some .hold else if b = 0x01#8 then some .yields else none

/-- holder_limit is 1 for EXCLUSIVE_ONLY and 1 to 8 for SHAREABLE (R1). -/
def holderLimitOk : ResKind → Nat → Bool
  | .exclusiveOnly, n => decide (n = 1)
  | .shareable, n => decide (1 ≤ n) && decide (n ≤ 8)

/-- A label character lies between 20h and 7Eh (R1). -/
def labelChar (b : Byte) : Bool := decide (0x20 ≤ b.toNat) && decide (b.toNat ≤ 0x7E)

/-- The 22 field bytes of an image, when they pass every range check of R1. -/
def fieldsOf? (bs : List Byte) : Option Fields :=
  match kindOf? (byteAt bs 0), contentionOf? (byteAt bs 10), flagOf? (byteAt bs 11) with
  | some k, some ct, some wa =>
    let limit := (byteAt bs 1).toNat
    let admitSet := (byteAt bs 2).toNat
    let dt := ofBe16 (byteAt bs 3) (byteAt bs 4)
    let mt := ofBe16 (byteAt bs 5) (byteAt bs 6)
    let len := (byteAt bs 12).toNat
    let chars := (bs.drop 13).take len
    if holderLimitOk k limit && decide (admitSet < 16) && decide (1 ≤ dt) && decide (dt ≤ mt)
        && decide (len ≤ 8) && chars.all labelChar then
      some { kind := k, holderLimit := limit, admitSet := BitVec.ofNat 4 admitSet, defaultTerm := dt,
             maxTerm := mt, warnLead := (byteAt bs 7).toNat, grace := (byteAt bs 8).toNat,
             renewLimit := (byteAt bs 9).toNat, contention := ct, waitAllowed := wa,
             label := if len = 0 then none else some chars }
    else none
  | _, _, _ => none

/-- The CRC-16 of a stored image matches: bytes 22 and 23 against bytes 0 to 21 (R160). -/
def imageCrcOk (bs : List Byte) : Bool := decide (bs.drop 22 = crc16Bytes (bs.take 22))

/-- The classification of a stored image (R1). -/
def classify (bs : List Byte) : Entry :=
  if blank bs then .undefined
  else if imageCrcOk bs then
    match fieldsOf? (bs.take 22) with
    | some f => .defined f
    | none => .damaged
  else .damaged

/-- The image PROGRAM_ENTRY programs: 22 field bytes and the CRC-16 (R137, R160). -/
def sealImage (fields : List Byte) : List Byte := padTo 22 fields ++ crc16Bytes (padTo 22 fields)

def ResKind.code : ResKind → Byte
  | .exclusiveOnly => 0x01#8
  | .shareable => 0x02#8

def Contention.code : Contention → Byte
  | .hold => 0x00#8
  | .yields => 0x01#8

/-- Bytes 0 to 11 of the image (Table 11-7). -/
def Fields.bytes (f : Fields) : List Byte :=
  [f.kind.code, byteOf f.holderLimit, byteOf f.admitSet.toNat] ++ be16 f.defaultTerm ++ be16 f.maxTerm
    ++ [byteOf f.warnLead, byteOf f.grace, byteOf f.renewLimit, f.contention.code,
        flagByte f.waitAllowed]

/-- The label's length and 8 character bytes; the bytes it does not hold are 00h (Table 11-4, R159; log 18). -/
def labelBytes : Option (List Byte) → List Byte
  | none => padTo 9 []
  | some cs => byteOf cs.length :: padTo 8 cs

/-- The entry part of a report: state, entry fields and label (Table 11-4). -/
def Entry.report : Entry → List Byte
  | .defined f => 0x01#8 :: (f.bytes ++ labelBytes f.label)
  | .undefined => 0x00#8 :: padTo 21 []
  | .damaged => 0x02#8 :: padTo 21 []

/-! ### Header pages (R150, R161, Table 11-8) -/

/-- Settings from a prescale byte and four policy bytes, when they are in range (R150). -/
def settingsOf? (prescale a b c d : Byte) : Option Settings :=
  if 1 ≤ prescale.toNat ∧ prescale.toNat ≤ 64 then
    match policyOf? a, policyOf? b, policyOf? c, policyOf? d with
    | some pa, some pb, some pc, some pd =>
      some { prescale := prescale.toNat, polA := pa, polB := pb, polC := pc, polD := pd }
    | _, _, _, _ => none
  else none

/-- The five settings bytes of a header page. -/
def Settings.bytes (t : Settings) : List Byte :=
  [byteOf t.prescale, t.polA.code, t.polB.code, t.polC.code, t.polD.code]

/-- The policy of a client port. -/
def Settings.policy (t : Settings) : CPort → Policy
  | .a => t.polA
  | .b => t.polB
  | .c => t.polC
  | .d => t.polD

/-- The defaults of FAULTED (R154). -/
def Settings.defaults : Settings :=
  { prescale := Config.defaultPrescale, polA := .release, polB := .release, polC := .release,
    polD := .release }

/-- A header page as the array holds it. -/
def headerOf (m : List Host.Cell) (h : HPage) : List Byte :=
  Memory.readBytes m (headerAddr h) Config.headerBytes

/-- The base epoch of a page (Table 11-8). -/
def headerBase (bs : List Byte) : Nat := ofBe16 (byteAt bs 0) (byteAt bs 1)

/-- The settings of a page, when in range. -/
def headerSettings? (bs : List Byte) : Option Settings :=
  settingsOf? (byteAt bs 2) (byteAt bs 3) (byteAt bs 4) (byteAt bs 5) (byteAt bs 6)

/-- A header page is valid when its four conditions hold (R150, R161). -/
def headerValid (bs : List Byte) : Bool :=
  decide (byteAt bs 9 = 0x00#8) && decide ((bs.drop 7).take 2 = crc16Bytes (bs.take 7))
    && decide (headerBase bs < Config.last16) && (headerSettings? bs).isSome

/-- The number of the highest mark that is not fully erased, marks numbered from `i + 1` on. -/
def highestMark : Nat → List Byte → Nat
  | _, [] => 0
  | i, b :: bs =>
    let rest := highestMark (i + 1) bs
    if rest ≠ 0 then rest else if b = Config.erased then 0 else i + 1

/-- The marks used of a page, k (R150). -/
def marksUsed (bs : List Byte) : Nat := highestMark 0 ((bs.drop 16).take Config.marks)

/-- Bytes 0 to 8 of a header page with a base and five settings bytes (R161). -/
def headerHead (base : Nat) (settings : List Byte) : List Byte :=
  let head := be16 base ++ settings
  head ++ crc16Bytes head

end Sys2Proof.Machine
end

