-- ==== Sys2Proof/Machine/Flags.lean ====
section
/-! DEFINITION. The flags of a port: the status word, the counts it carries, and ATTN#. -/

namespace Sys2Proof.Machine

/-- Outbound entries of a port (R110). -/
def portDepth : PortId → Nat
  | .client _ => Config.clientDepth
  | .sup => Config.supDepth

/-- Notice limit of a port (R110). -/
def noticeLimit : PortId → Nat
  | .client _ => Config.clientNotices
  | .sup => Config.supNotices

/-- Notices in the outbound queue. -/
def PortUnit.notices (u : PortUnit) : Nat := (u.queue.filter Message.isNotice).length

/-- Outbound entries that are not free: messages, and the reserved entry (R109). -/
def PortUnit.taken (u : PortUnit) : Nat := u.queue.length + u.reserved.toNat

/-- A notice can enter: fewer notices than the limit, and an entry free and not reserved (R110). -/
def PortUnit.room (p : PortId) (u : PortUnit) : Bool :=
  decide (u.notices < noticeLimit p) && decide (u.taken < portDepth p)

/-- First status byte: part state, OVERRUN, FRAME_ERROR, RESTARTED (chapter 11.1). -/
def statusByte1 (part : PartState) (u : PortUnit) : Byte :=
  part.code <<< 6 ||| flagByte u.overrun <<< 2 ||| flagByte u.frameError <<< 1
    ||| flagByte u.restarted

/-- Second status byte: inbound free count and outbound message count, without the reserved entry (R102). -/
def statusByte2 (u : PortUnit) : Byte :=
  byteOf (Config.fifoDepth - u.fifo.length) <<< 5 ||| byteOf u.queue.length

/-- The flags that a first status byte carries set are cleared; one that it does not carry stays (R102). -/
def PortUnit.clearCarried (word1 : Byte) (u : PortUnit) : PortUnit :=
  { u with
    overrun := u.overrun && !word1.getLsbD 2
    frameError := u.frameError && !word1.getLsbD 1
    restarted := u.restarted && !word1.getLsbD 0 }

/-- ATTNx# is low while the port's outbound queue holds a message, and high while RESET# is low or there
is no supply (R106, R100). -/
def State.attnLow (s : State) (p : PortId) : Bool :=
  s.alive && !(s.port p).queue.isEmpty

end Sys2Proof.Machine
end

