-- ==== Sys2Proof/Machine/Notices.lean ====
section
/-! DEFINITION. Messages: the lease snapshot, the notices, how one is offered, owed, merged, withdrawn and
delivered (R35, R111 to R114), and how supervisor notices are raised, held and delivered (R122, R123). -/

namespace Sys2Proof.Machine

/-- The message joins the tail of the port's outbound queue. -/
def State.pushMessage (s : State) (p : PortId) (m : Message) : State :=
  s.setPort p { s.port p with queue := (s.port p).queue ++ [m] }

/-! ### The lease snapshot (R35) -/

/-- The 14 bytes of a snapshot, from the slot's state code, lease, grace and upgrade-pending. -/
def snapshot (i : SlotNo) (gen : Byte) (l : Lease) (code : Byte) (grace : Option Nat) (upgrade : Bool) :
    List Byte :=
  [byteOf i.val, gen, byteOf l.resource.val, l.mode.code] ++ l.fence.bytes ++ [code]
    ++ be16 l.remaining ++ [flagByte grace.isSome, byteOf (grace.getD 0), flagByte upgrade]

/-- The resource's upgrade-pending field names the slot. -/
def State.upgradeNames (s : State) (i : SlotNo) (n : ResNo) : Bool :=
  decide ((s.record n).upgradePending = some i)

/-- The snapshot of a slot as it stands; no bytes for a slot without a lease. -/
def State.slotSnapshot (s : State) (i : SlotNo) : List Byte :=
  match (s.slot i).body.lease? with
  | none => []
  | some l =>
    snapshot i (s.slot i).generation l (s.slot i).body.code (s.slot i).body.grace?
      (s.upgradeNames i l.resource)

/-! ### Client notices (Table 7-3, Table 11-5) -/

def Owed.code : Owed → Byte
  | .granted _ => 0xC1#8
  | .upgraded => 0xC2#8
  | .upgradeEnded _ => 0xC3#8
  | .expiryWarning => 0xC4#8
  | .revokeNotice => 0xC5#8
  | .leaseEnded => 0xC6#8

/-- Ranks of Table 7-3, 1 the highest. -/
def Owed.rank : Owed → Nat
  | .leaseEnded => 1
  | .granted _ => 2
  | .upgraded => 3
  | .revokeNotice => 4
  | .upgradeEnded _ => 5
  | .expiryWarning => 6

/-- A notice raised for a slot that already owes one (R113). -/
def Owed.merge (old new : Owed) : Owed :=
  if new.rank < old.rank then new
  else match old, new with
    | .upgradeEnded _, .upgradeEnded c => .upgradeEnded c
    | o, _ => o

/-- Byte 2 of a slot's notice: the request id of a GRANTED (Table 11-5). -/
def Owed.rid : Owed → Byte
  | .granted rid => rid
  | .leaseEnded | .upgraded | .revokeNotice | .upgradeEnded _ | .expiryWarning => 0x00#8

/-- The cause byte of an ENDED slot's LEASE_ENDED. -/
def SlotBody.endCode : SlotBody → Byte
  | .ended _ _ c => c.code
  | .free | .reserved _ | .active _ _ | .revoking _ _ => 0x00#8

/-- Byte 3 of a slot's notice: the cause, where the kind has one. -/
def Owed.cause (k : Owed) (b : SlotBody) : Byte :=
  match k with
  | .leaseEnded => b.endCode
  | .upgradeEnded c => c.code
  | .granted _ | .upgraded | .revokeNotice | .expiryWarning => 0x00#8

/-- A notice for a slot with lease `l`, its snapshot taken now (R35). -/
def State.slotNotice (s : State) (i : SlotNo) (l : Lease) (k : Owed) : Message :=
  { isNotice := true, code := k.code, tag := byteOf l.client.tag.val, rid := k.rid,
    status := k.cause (s.slot i).body, body := s.slotSnapshot i }

/-- LEASE_ENDED at the end event, before the slot becomes FREE: state ENDED and the frozen values (R35). -/
def leaseEndedNotice (i : SlotNo) (gen : Byte) (l : Lease) (grace : Option Nat) (cause : Byte) : Message :=
  { isNotice := true, code := 0xC6#8, tag := byteOf l.client.tag.val, rid := 0x00#8, status := cause,
    body := snapshot i gen l 0x04#8 grace false }

/-- WAIT_ENDED: resource, cause and the echoed request id (R52). -/
def waitEndedNotice (w : Wait) (cause : Byte) : Message :=
  { isNotice := true, code := 0xC7#8, tag := byteOf w.client.tag.val, rid := w.rid, status := cause,
    body := [byteOf w.resource.val] }

/-- A client notice can enter the queue at once (R111). -/
def State.canTake (s : State) (p : CPort) : Bool :=
  (s.side p).owed.isEmpty && (s.port (.client p)).room (.client p)

/-- A record joins the tail of the owed list (R112). -/
def State.joinOwed (s : State) (p : CPort) (r : Ref) : State :=
  s.setSide p { s.side p with owed := (s.side p).owed ++ [r] }

/-- A record leaves the owed list, the records behind it keeping their order (R112). -/
def State.leaveOwed (s : State) (p : CPort) (r : Ref) : State :=
  s.setSide p { s.side p with owed := (s.side p).owed.erase r }

/-- The owed notice of a slot's lease. -/
def State.setOwed (s : State) (i : SlotNo) (o : Option Owed) : State :=
  s.setBody i ((s.slot i).body.mapLease fun l => { l with owed := o })

/-- A notice raised for a slot is offered to its client's port (R111, R113). -/
def State.offer (s : State) (i : SlotNo) (k : Owed) : State :=
  match (s.slot i).body.lease? with
  | none => s
  | some l =>
    if s.canTake l.client.port then s.pushMessage (.client l.client.port) (s.slotNotice i l k)
    else match l.owed with
      | none => (s.setOwed i (some k)).joinOwed l.client.port (.slot i)
      | some old => s.setOwed i (some (old.merge k))

/-- What withdrawal does to the record: an ENDED one becomes FREE, a running lease owes nothing (R112). -/
def State.dropOwed (s : State) : Ref → State
  | .slot i =>
    match (s.slot i).body with
    | .ended _ _ _ => s.freeSlot i
    | .free | .reserved _ | .active _ _ | .revoking _ _ => s.setOwed i none
  | .wait j =>
    match s.wait j with
    | .ended _ _ => s.setWait j .free
    | .free | .queued _ _ _ => s

/-- A record's owed notice is withdrawn (R112). -/
def State.withdraw (s : State) (p : CPort) (r : Ref) : State :=
  (s.leaveOwed p r).dropOwed r

/-- The client of a record on an owed list. -/
def State.refClient (s : State) : Ref → Option Client
  | .slot i => (s.slot i).body.client?
  | .wait j => (s.wait j).info?.map Wait.client

/-- The owed notice of the record as a message, taken now, and what delivery does to the record (R114). -/
def State.deliverRef (s : State) (p : CPort) : Ref → State
  | .slot i =>
    match (s.slot i).body.lease? with
    | some l =>
      match l.owed with
      | some k => (s.pushMessage (.client p) (s.slotNotice i l k)).dropOwed (.slot i)
      | none => s
    | none => s
  | .wait j =>
    match s.wait j with
    | .ended w c => (s.pushMessage (.client p) (waitEndedNotice w c.code)).setWait j .free
    | .free | .queued _ _ _ => s

/-- Owed notices leave from the head while the queue has room; `fuel` is the list's length (R114). -/
def State.deliverOwed : Nat → CPort → State → State
  | 0, _, s => s
  | fuel + 1, p, s =>
    match (s.side p).owed with
    | [] => s
    | r :: rest =>
      if (s.port (.client p)).room (.client p) then
        State.deliverOwed fuel p ((s.setSide p { s.side p with owed := rest }).deliverRef p r)
      else s

/-- Delivery of the owed notices of a port (R114). -/
def State.deliverAllOwed (s : State) (p : CPort) : State :=
  State.deliverOwed (s.side p).owed.length p s

/-! ### Supervisor notices (R122, R123, Table 11-5) -/

/-- A notice of port S. -/
def supNotice (code status : Byte) (body : List Byte) : Message :=
  { isNotice := true, code := code, tag := 0x00#8, rid := 0x00#8, status := status, body := body }

/-- The ACTIVATED notice of an applied entry (R15). -/
def activatedNotice (n : ResNo) (image : Entry) (waitsRemoved : Nat) : Message :=
  supNotice 0xE3#8 0x00#8 [byteOf n.val, image.code, byteOf waitsRemoved]

/-- The notice an activation list entry holds. -/
def Activation.notice? (a : Activation) : Option Message :=
  match a.state with
  | .pending => none
  | .applied k => some (activatedNotice a.resource a.image k)

/-- Supervisor notices held, by the store or by the activation list (R122). -/
def State.heldNotices (s : State) : Nat :=
  s.store.held.length + (s.activations.filter Activation.isApplied).length

/-- Port S has room for a notice. -/
def State.supRoom (s : State) : Bool := (s.port .sup).room .sup

/-- A store notice enters port S's queue at once, or the store holds it (R122). -/
def State.raiseStoreNotice (s : State) (m : Message) : State :=
  if s.supRoom && decide (s.heldNotices = 0) then s.pushMessage .sup m
  else s.setStore { s.store with held := s.store.held ++ [m] }

/-- The store is ready to start: IDLE, no notice held, no fault (R136). -/
def Store.ready (st : Store) : Bool :=
  st.running.isNone && st.held.isEmpty && st.fault.isNone

/-- A LAUNCHED command starts when the store is ready, and the stage becomes EMPTY (R141). -/
def Store.startLaunched (st : Store) : Store :=
  match st.stage with
  | .launched op => if st.ready then { st with running := some op, stage := .empty } else st
  | .empty | .held _ => st

/-- The applied entry of an activation list whose notice goes first, and the list without it (R123). -/
def takeApplied : List Activation → Option (Message × List Activation)
  | [] => none
  | a :: t =>
    match a.notice? with
    | some m => some (m, t)
    | none => (takeApplied t).map fun r => (r.1, a :: r.2)

/-- One held notice takes room on port S: the store's first, then the activation list's; `none` when there
is none or no room (R123). -/
def State.deliverHeldOne (s : State) : Option State :=
  if s.supRoom then
    match s.store.held with
    | m :: t =>
      some ((s.pushMessage .sup m).setStore ({ s.store with held := t }.startLaunched))
    | [] =>
      (takeApplied s.activations).map fun r => (s.pushMessage .sup r.1).setActivations r.2
  else none

/-- Held notices enter while there is room; `fuel` is their number (R123). -/
def State.deliverHeld : Nat → State → State
  | 0, s => s
  | fuel + 1, s =>
    match s.deliverHeldOne with
    | none => s
    | some s' => State.deliverHeld fuel s'

/-- Delivery of port S's held notices (R123). -/
def State.deliverAllHeld (s : State) : State := State.deliverHeld s.heldNotices s

end Sys2Proof.Machine
end

