-- ==== Sys2Proof/Machine/Ops.lean ====
section
/-! DEFINITION. The operations shared by the commands: grants and fences, lease ends, wait ends, the pending
upgrade, revocation, activation, and the grant rule (chapters 1 to 5). -/

namespace Sys2Proof.Machine

/-! ### Looking up -/

/-- The lowest-numbered FREE slot (R21). -/
def State.freeSlot? (s : State) : Option SlotNo :=
  allSlots.find? fun i => decide ((s.slot i).body = .free)

/-- The lowest-numbered FREE wait entry (R44). -/
def State.freeWait? (s : State) : Option WaitNo :=
  allWaits.find? fun j => decide (s.wait j = .free)

/-- The client holds a lease in ACTIVE or REVOKING on the resource (R37, check 8). -/
def State.holds (s : State) (c : Client) (n : ResNo) : Bool :=
  allSlots.any fun i =>
    match (s.slot i).body.live? with
    | some l => decide (l.client = c) && decide (l.resource = n)
    | none => false

/-- The client's wait entry in QUEUED on the resource (R37, check 9; R54). -/
def State.waitOf? (s : State) (c : Client) (n : ResNo) : Option WaitNo :=
  allWaits.find? fun j =>
    match (s.wait j).queued? with
    | some w => decide (w.client = c) && decide (w.resource = n)
    | none => false

/-- Slots the client occupies in RESERVED, ACTIVE and REVOKING (R26). -/
def State.slotCount (s : State) (c : Client) : Nat :=
  (allSlots.filter fun i => (s.slot i).countsFor c).length

/-- The client's wait entries in QUEUED, ascending. -/
def State.waitsOf (s : State) (c : Client) : List WaitNo :=
  allWaits.filter fun j => decide ((s.wait j).queued?.map Wait.client = some c)

/-- The client's slots in ACTIVE and REVOKING, ascending. -/
def State.leasesOf (s : State) (c : Client) : List SlotNo :=
  allSlots.filter fun i => decide ((s.slot i).body.live?.map Lease.client = some c)

/-- Position of an element of a queue, counted from 1 at the head, 0 when it is not there (R6). -/
def positionIn (j : WaitNo) : List WaitNo → Nat
  | [] => 0
  | k :: t => if k = j then 1 else match positionIn j t with
    | 0 => 0
    | p + 1 => p + 2

/-- Resource numbers in ascending order without repeats (R116, R117, R132). -/
def insertAsc (n : ResNo) : List ResNo → List ResNo
  | [] => [n]
  | k :: t => if n = k then k :: t else if n < k then n :: k :: t else k :: insertAsc n t

/-- The resources of a list, ascending, each once. -/
def ascending (ns : List ResNo) : List ResNo := ns.foldr insertAsc []

/-! ### Grantability and grants (R39, R22, R27) -/

/-- A resource is grantable for a mode (R39). -/
def State.grantable (s : State) (n : ResNo) (m : Mode) : Bool :=
  match s.entry n with
  | .undefined | .damaged => false
  | .defined f =>
    let r := s.record n
    !r.fenceSpent && !r.activationPending &&
      match m with
      | .exclusive => r.holders.isEmpty
      | .shared =>
        decide (r.holders.length < f.holderLimit) && decide (f.kind = .shareable)
          && decide (s.modeHeld n ≠ some .exclusive) && r.upgradePending.isNone

/-- The term a grant or renewal gives (R22, R82). -/
def Fields.termFor (f : Fields) (asked : Nat) : Nat :=
  if asked = 0 then f.defaultTerm else min asked f.maxTerm

/-- The next fence of the resource (R27). -/
def State.nextFence (s : State) (n : ResNo) : Fence :=
  { epoch := s.epoch, seq := (s.record n).lastSeq + 1 }

/-- The slot becomes ACTIVE with a fence and a term, and joins the tail of the holder list (R22). -/
def State.grantSlot (s : State) (i : SlotNo) (n : ResNo) (c : Client) (m : Mode) (term : Nat) : State :=
  let t := (s.entry n).fieldsD.termFor term
  let lease : Lease :=
    { resource := n, client := c, mode := m, fence := s.nextFence n, granted := t, remaining := t,
      renewals := 0, warned := false, owed := none }
  let r := s.record n
  (s.setBody i (.active lease none)).setRecord n
    { r with holders := r.holders ++ [i], lastSeq := r.lastSeq + 1 }

/-! ### The end of a wait (R51, R52) -/

/-- Steps 1 and 2 of R51: the entry leaves its queue and the reserved slot becomes FREE. -/
def State.leaveQueue (s : State) (j : WaitNo) (n : ResNo) (i : SlotNo) : State :=
  let r := s.record n
  (s.setRecord n { r with queue := r.queue.erase j }).freeSlot i

/-- A wait ends TIMEOUT, REFUSED, WITHDRAWN or FENCE_SPENT: steps 1 to 3 of R51. -/
def State.endWait (s : State) (cause : WaitCause) (j : WaitNo) : State :=
  match s.wait j with
  | .queued w _ i =>
    let s1 := s.leaveQueue j w.resource i
    if s1.canTake w.client.port then
      (s1.pushMessage (.client w.client.port) (waitEndedNotice w cause.code)).setWait j .free
    else (s1.setWait j (.ended w cause)).joinOwed w.client.port (.wait j)
  | .free | .ended _ _ => s

/-- A wait ends PURGED; a notice that finds no room is discarded (R52). -/
def State.endWaitPurged (s : State) (j : WaitNo) : State :=
  match s.wait j with
  | .queued w _ i =>
    let s1 := s.leaveQueue j w.resource i
    let s2 := if s1.canTake w.client.port then
        s1.pushMessage (.client w.client.port) (waitEndedNotice w purgedWaitCode)
      else s1
    s2.setWait j .free
  | .free | .ended _ _ => s

/-- A wait ends CANCELLED or DETACHED, with no notice (R52). -/
def State.endWaitQuiet (s : State) (j : WaitNo) : State :=
  match s.wait j with
  | .queued w _ i => (s.leaveQueue j w.resource i).setWait j .free
  | .free | .ended _ _ => s

/-! ### Fence exhaustion (R29) -/

/-- The event that issued sequence 65535 makes the resource fence spent and ends every queued wait. -/
def State.exhaust (s : State) (n : ResNo) : State :=
  let r := s.record n
  if r.lastSeq = Config.last16 then
    r.queue.foldl (fun t j => t.endWait .fenceSpent j) (s.setRecord n { r with fenceSpent := true })
  else s

/-! ### The pending upgrade (R65, R68, R69) -/

/-- The pending upgrade of the resource is cleared and the slot's deadline removed. -/
def State.clearUpgrade (s : State) (n : ResNo) : State :=
  match (s.record n).upgradePending with
  | none => s
  | some i =>
    (s.setRecord n { s.record n with upgradePending := none }).setBody i (s.slot i).body.dropDeadline

/-- The slot's mode becomes EXCLUSIVE with a new fence, and no upgrade is pending (R65, R68). -/
def State.upgradeSlot (s : State) (i : SlotNo) (n : ResNo) : State :=
  let f := s.nextFence n
  let r := s.record n
  (s.setRecord n { r with upgradePending := none, lastSeq := r.lastSeq + 1 }).setBody i
    ((s.slot i).body.dropDeadline.mapLease fun l => { l with mode := .exclusive, fence := f })

/-- The pending upgrade ends with UPGRADE_ENDED (R69). -/
def State.endUpgrade (s : State) (n : ResNo) (cause : UpgradeEndCause) : State :=
  match (s.record n).upgradePending with
  | none => s
  | some i => (s.clearUpgrade n).offer i (.upgradeEnded cause)

/-! ### The grant rule (R59, R60, R68, R14) -/

/-- Step 2: a pending upgrade whose slot is the only holder is granted (R68). -/
def State.serveUpgrade (s : State) (n : ResNo) : State :=
  match (s.record n).upgradePending with
  | none => s
  | some i =>
    if (s.record n).holders = [i] then ((s.upgradeSlot i n).offer i .upgraded).exhaust n else s

/-- The term asked for by the acquisition a slot is reserved for (R22). -/
def SlotBody.requestedTerm : SlotBody → Nat
  | .reserved r => r.term
  | .free | .active _ _ | .revoking _ _ | .ended _ _ _ => 0

/-- The head of the queue is granted (R60). -/
def State.grantWait (s : State) (n : ResNo) (j : WaitNo) (w : Wait) (i : SlotNo) : State :=
  let s1 := s.grantSlot i n w.client w.mode (s.slot i).body.requestedTerm
  let r := s1.record n
  let s2 := (s1.setRecord n { r with queue := r.queue.erase j }).setWait j .free
  (s2.offer i (.granted w.rid)).exhaust n

/-- The head of the queue, if it is grantable: granted; `none` otherwise. -/
def State.grantHead? (s : State) (n : ResNo) : Option State :=
  match (s.record n).queue with
  | [] => none
  | j :: _ =>
    match s.wait j with
    | .queued w _ i => if s.grantable n w.mode then some (s.grantWait n j w i) else none
    | .free | .ended _ _ => none

/-- Step 3: heads are granted while the head is grantable; `fuel` is the queue's length. -/
def State.grantHeads : Nat → ResNo → State → State
  | 0, _, s => s
  | fuel + 1, n, s =>
    match s.grantHead? n with
    | none => s
    | some s' => State.grantHeads fuel n s'

/-- Steps 2 and 3 of the grant rule (R59). -/
def State.serve (s : State) (n : ResNo) : State :=
  State.grantHeads (s.record n).queue.length n (s.serveUpgrade n)

/-- A queued wait is still admissible under the new entry; otherwise the cause it ends with (R14). -/
def recheckCause (image : Entry) (w : Wait) : Option WaitCause :=
  match image with
  | .undefined | .damaged => some .withdrawn
  | .defined f =>
    if !f.admits w.client.port then some .refused
    else if w.mode = .shared ∧ f.kind = .exclusiveOnly then some .refused
    else none

/-- The cause with which the re-check ends a queue's entry, if it does. -/
def State.recheckOf (s : State) (image : Entry) (j : WaitNo) : Option WaitCause :=
  match (s.wait j).queued? with
  | some w => recheckCause image w
  | none => none

/-- The waits of the queue that the re-check ends. -/
def State.recheckEnds (s : State) (n : ResNo) (image : Entry) : List WaitNo :=
  (s.record n).queue.filter fun j => (s.recheckOf image j).isSome

/-- Step 2 of R14: the re-check from head to tail. -/
def State.recheck (s : State) (n : ResNo) (image : Entry) : State :=
  (s.recheckEnds n image).foldl
    (fun t j => match t.recheckOf image j with
      | some cause => t.endWait cause j
      | none => t) s

/-- Step 1 of R14: the captured image is in force and the mark is NO. -/
def State.putInForce (s : State) (n : ResNo) (image : Entry) : State :=
  (s.setEntry n image).setRecord n { s.record n with activationPending := false }

/-- The PENDING entry of the resource on the activation list (R8). -/
def State.pendingEntry (s : State) (n : ResNo) : Option Activation :=
  s.activations.find? fun a => a.pendingFor n

/-- The PENDING entry of the resource becomes APPLIED with its count (R14). -/
def markApplied (n : ResNo) (count : Nat) (l : List Activation) : List Activation :=
  l.map fun a => if a.pendingFor n then { a with state := .applied count } else a

/-- The PENDING entry of the resource leaves the list (R12, R16). -/
def dropPending (n : ResNo) (l : List Activation) : List Activation :=
  l.filter fun a => !a.pendingFor n

/-- Step 4 of R14: the ACTIVATED notice of the entry just applied enters port S's queue when nothing else is
held and there is room, and the entry leaves the list; otherwise it is held (R15, R122). -/
def State.offerActivated (s : State) : State :=
  if s.supRoom && decide (s.heldNotices = 1) then
    match takeApplied s.activations with
    | some r => (s.pushMessage .sup r.1).setActivations r.2
    | none => s
  else s

/-- A drained pending activation is applied: steps 1 to 4 of R14. -/
def State.applyPending (s : State) (n : ResNo) (image : Entry) : State :=
  let s1 := s.putInForce n image
  let count := (s1.recheckEnds n image).length
  let s2 := s1.recheck n image
  let s3 := (s2.setActivations (markApplied n count s2.activations)).serve n
  s3.offerActivated

/-- The grant rule of a resource (R59). -/
def State.grantRule (s : State) (n : ResNo) : State :=
  if (s.record n).activationPending then
    if (s.record n).holders.isEmpty then
      match s.pendingEntry n with
      | some a => s.applyPending n a.image
      | none => s
    else s
  else s.serve n

/-- The grant rule at each resource of a list, in its order. -/
def State.grantRules (s : State) (ns : List ResNo) : State :=
  ns.foldl (fun t n => t.grantRule n) s

/-! ### The end of a lease (R32, R33) -/

/-- Steps 1 and 2 of R32: a pending upgrade of the slot is cleared, and the slot leaves the holder list. -/
def State.leaveHolders (s : State) (i : SlotNo) (n : ResNo) : State :=
  let r := s.record n
  s.setRecord n
    { r with
      holders := r.holders.erase i
      upgradePending := if r.upgradePending = some i then none else r.upgradePending }

/-- A lease ends EXPIRED or REVOKED: steps 1 to 4 of R32. -/
def State.endLease (s : State) (cause : EndCause) (i : SlotNo) : State :=
  match (s.slot i).body.live? with
  | none => s
  | some l =>
    let grace := (s.slot i).body.grace?
    let p := l.client.port
    let s1 := s.leaveHolders i l.resource
    if l.owed.isNone && s1.canTake p then
      (s1.pushMessage (.client p)
        (leaseEndedNotice i (s.slot i).generation l grace cause.code)).freeSlot i
    else
      let s2 := s1.setBody i (.ended { l with owed := some .leaseEnded } grace cause)
      if l.owed.isNone then s2.joinOwed p (.slot i) else s2

/-- A lease ends PURGED: LEASE_ENDED is queued or discarded, an owed notice withdrawn (R33). -/
def State.endLeasePurged (s : State) (i : SlotNo) : State :=
  match (s.slot i).body.live? with
  | none => s
  | some l =>
    let p := l.client.port
    let s1 := s.leaveHolders i l.resource
    let s2 := if l.owed.isNone && s1.canTake p then
        s1.pushMessage (.client p)
          (leaseEndedNotice i (s.slot i).generation l (s.slot i).body.grace? purgedLeaseCode)
      else s1.leaveOwed p (.slot i)
    s2.freeSlot i

/-- A lease ends RELEASED or DETACHED: no notice, and an owed one is withdrawn (R33). -/
def State.endLeaseQuiet (s : State) (i : SlotNo) : State :=
  match (s.slot i).body.live? with
  | none => s
  | some l =>
    ((s.leaveHolders i l.resource).leaveOwed l.client.port (.slot i)).freeSlot i

/-! ### Revocation (R85) -/

/-- A lease in ACTIVE is revoked, without the grant rule: steps 1 to 3 of R85, or steps 1 to 4 of R32. -/
def State.revokeSlot (s : State) (i : SlotNo) (grace : Nat) : State :=
  match (s.slot i).body with
  | .active l _ =>
    if grace = 0 then s.endLease .revoked i
    else
      let s1 := if s.upgradeNames i l.resource then
          s.setRecord l.resource { s.record l.resource with upgradePending := none }
        else s
      (s1.setBody i (.revoking l grace)).offer i .revokeNotice
  | .free | .reserved _ | .revoking _ _ | .ended _ _ _ => s

/-- The holders of a resource in state ACTIVE, in holder-list order (R131). -/
def State.activeHolders (s : State) (n : ResNo) : List SlotNo :=
  (s.record n).holders.filter fun i =>
    match (s.slot i).body with
    | .active _ _ => true
    | .free | .reserved _ | .revoking _ _ | .ended _ _ _ => false

/-! ### The request in hand (R109, R157) -/

/-- An answer: the status and the fields the status adds (Table 11-3). -/
structure Reply where
  status : Status
  extra : List Byte
  deriving DecidableEq, Repr

/-- An answer without further fields. -/
def Reply.bare (st : Status) : Reply := { status := st, extra := [] }

/-- The response is placed in the reserved entry, and the engine is free (R109). -/
def State.placeResponse (s : State) (p : PortId) (m : Message) : State :=
  let u := s.port p
  (s.setPort p { u with queue := u.queue ++ [m], reserved := false }).setEngine none

/-- Byte 1 of a response: the frame's tag byte on a client port, 00h on port S (chapter 11.3; log 14). -/
def Request.tagByte (r : Request) : Byte :=
  match r.port with
  | .client _ => byteAt r.frame 1
  | .sup => 0x00#8

/-- The response of a kind to the request in hand (Table 11-3). -/
def responseTo (k : Kind) (r : Request) (a : Reply) : Message :=
  { isNotice := false, code := 0x80#8 + k.code, tag := r.tagByte, rid := byteAt r.frame 2,
    status := a.status.code, body := echoFields k.always (r.frame.drop 4) ++ a.extra }

/-- The request in hand is answered. -/
def State.answer (s : State) (k : Kind) (r : Request) (a : Reply) : State :=
  s.placeResponse r.port (responseTo k r a)

/-- The form checks of R157 once the kind is known: fill byte, byte 1 on port S, length. -/
def formOk (k : Kind) (r : Request) : Bool :=
  decide (byteAt r.frame 3 = 0x00#8) && decide (r.frame.length = k.len) &&
    match r.port with
    | .client _ => true
    | .sup => decide (byteAt r.frame 1 = 0x00#8)

/-- What a well-formed request does: the state before its response, and the answer. -/
abbrev Decision := State × Reply

/-- A request that changes nothing but its answer. -/
def State.refuse (s : State) (st : Status) : Decision := (s, Reply.bare st)

/-- A client request carried out: PART_FAULTED, then the form, then the request's own decision (R157). -/
def State.clientRequest (s : State) (k : Kind) (decision : Client → Frame → State → Decision) : State :=
  if s.serving then
    match s.engine with
    | some ⟨.client p, f⟩ =>
      if byteAt f 0 = k.code then
        if s.part = .faulted then s.answer k ⟨.client p, f⟩ (Reply.bare .partFaulted)
        else if formOk k ⟨.client p, f⟩ then
          match tagOf? (byteAt f 1) with
          | some t =>
            let d := decision { port := p, tag := t } f s
            d.1.answer k ⟨.client p, f⟩ d.2
          | none => s.answer k ⟨.client p, f⟩ (Reply.bare .badRequest)
        else s.answer k ⟨.client p, f⟩ (Reply.bare .badRequest)
      else s
    | some ⟨.sup, _⟩ => s
    | none => s
  else s

/-- A supervisor request carried out: the form, then the request's own decision (R121, R157). -/
def State.supRequest (s : State) (k : Kind) (decision : Frame → State → Decision) : State :=
  if s.serving then
    match s.engine with
    | some ⟨.sup, f⟩ =>
      if byteAt f 0 = k.code then
        if formOk k ⟨.sup, f⟩ then
          let d := decision f s
          d.1.answer k ⟨.sup, f⟩ d.2
        else s.answer k ⟨.sup, f⟩ (Reply.bare .badRequest)
      else s
    | some ⟨.client _, _⟩ => s
    | none => s
  else s

/-- A handle that is accepted, with its slot and lease (R24). -/
def State.accept (s : State) (i : SlotNo) (gen : Byte) : Option Lease :=
  if (s.slot i).generation = gen then (s.slot i).body.live? else none

/-- A client request that carries a handle at bytes 4 and 5, with the owner check (R24): the malformed slot,
`before` (a refusal made before the handle is looked at), the stale handle, the other client's lease. -/
def State.withHandle (s : State) (c : Client) (f : Frame) (before : Option Status)
    (decision : SlotNo → Lease → Decision) : Decision :=
  match slotOf? (byteAt f 4) with
  | none => s.refuse .badRequest
  | some i =>
    match before with
    | some st => s.refuse st
    | none =>
      match s.accept i (byteAt f 5) with
      | none => s.refuse .staleHandle
      | some l => if l.client = c then decision i l else s.refuse .notOwner

end Sys2Proof.Machine
end

