-- ==== Sys2Proof/Machine/Events.lean ====
section
/-! DEFINITION. The grant rule's parts as events of their own, the delivery of waiting notices, and the dispatcher
(R60, R68, R14, R114, R123, R108; log 12). -/

namespace Sys2Proof.Machine

/-! ### The grant rule's parts -/

/-- The grant rule is past its first step at the resource (R59). -/
def State.serves (s : State) (n : ResNo) : Bool := s.serving && !(s.record n).activationPending

/-- GRANT_FROM_QUEUE: the queue head, if grantable, is granted (R60). -/
def execGrantFromQueue (n : ResNo) (s : State) : Host.Outcome State Fault Refusal :=
  .next (if s.serves n then (s.grantHead? n).getD s else s)

/-- UPGRADE_GRANT: a pending upgrade whose slot is the sole holder is granted (R68). -/
def execUpgradeGrant (n : ResNo) (s : State) : Host.Outcome State Fault Refusal :=
  .next (if s.serves n then s.serveUpgrade n else s)

/-- ACTIVATION_APPLICATION: a pending activation whose resource has no holder is applied (R14). -/
def execActivationApplication (n : ResNo) (s : State) : Host.Outcome State Fault Refusal :=
  if s.serving && (s.record n).activationPending && (s.record n).holders.isEmpty then
    match s.pendingEntry n with
    | some a => .next (s.applyPending n a.image)
    | none => .next s
  else .next s

/-! ### Waiting notices -/

/-- OWED_NOTICE_DELIVERY: owed notices enter while there is room (R114). -/
def execOwedNoticeDelivery (p : CPort) (s : State) : Host.Outcome State Fault Refusal :=
  .next (if s.serving then s.deliverAllOwed p else s)

/-- HELD_NOTICE_DELIVERY: held supervisor notices enter while there is room (R123). -/
def execHeldNoticeDelivery (s : State) : Host.Outcome State Fault Refusal :=
  .next (if s.serving then s.deliverAllHeld else s)

/-! ### The dispatcher (R108) -/

/-- A frame waits and an outbound entry is free. -/
def State.eligible (s : State) (p : PortId) : Bool :=
  !(s.port p).fifo.isEmpty && decide ((s.port p).taken < portDepth p)

/-- The cyclic order A, B, C, D, S from the port after `p` on. -/
def portsAfter : PortId → List PortId
  | .client .a => [.client .b, .client .c, .client .d, .sup, .client .a]
  | .client .b => [.client .c, .client .d, .sup, .client .a, .client .b]
  | .client .c => [.client .d, .sup, .client .a, .client .b, .client .c]
  | .client .d => [.sup, .client .a, .client .b, .client .c, .client .d]
  | .sup => [.client .a, .client .b, .client .c, .client .d, .sup]

/-- The first eligible port after the rotation pointer. -/
def State.nextPort (s : State) : Option PortId := (portsAfter s.rotation).find? s.eligible

/-- The head frame of a port is taken: the pointer names the port, and one entry is reserved (R108). -/
def State.takeFrame (s : State) (p : PortId) (f : Frame) : State :=
  let u := s.port p
  { s.setPort p { u with fifo := u.fifo.tail, reserved := true } with
    rotation := p, engine := some { port := p, frame := f } }

/-- DISPATCH: the engine, when it is free, takes the head frame of the next eligible port (R108). -/
def execDispatch (s : State) : Host.Outcome State Fault Refusal :=
  if s.serving && s.engine.isNone then
    match s.nextPort with
    | some p =>
      match (s.port p).fifo with
      | f :: _ => .next (s.takeFrame p f)
      | [] => .next s
    | none => .next s
  else .next s

end Sys2Proof.Machine
end

