-- ==== Sys2Proof/Machine/ClientRequests.lean ====
section
/-! DEFINITION. The client requests that acquire, wait, release, renew and change modes (chapters 3, 4 and 5), and
the answer to an unknown kind (R157). Each decision is what R157 leaves to the request's own checks. -/

namespace Sys2Proof.Machine

/-- The resource operand at byte 4. -/
def Frame.resource (f : Frame) : ResNo := resOf (byteAt f 4)

/-- The two bytes of a handle (chapter 11). -/
def State.handleBytes (s : State) (i : SlotNo) : List Byte := [byteOf i.val, (s.slot i).generation]

/-! ### ACQUIRE (R36 to R42) -/

/-- Checks 4 to 11 of R37: the refusal, if one applies. -/
def State.acquireRefusal (s : State) (c : Client) (n : ResNo) (m : Mode) : Option Status :=
  match s.entry n with
  | .undefined => some .noResource
  | .damaged => some .damaged
  | .defined e =>
    if !e.admits c.port then some .notAdmitted
    else if m = .shared ∧ e.kind = .exclusiveOnly then some .modeNotAllowed
    else if s.holds c n then some .alreadyHolder
    else if (s.waitOf? c n).isSome then some .alreadyWaiting
    else if (s.record n).fenceSpent then some .fenceSpent
    else if Config.slotCap ≤ s.slotCount c then some .capReached
    else none

/-- Check 13 of R38: grantable, and nobody waits (R40). -/
def State.grantsAtOnce (s : State) (n : ResNo) (m : Mode) : Bool :=
  s.grantable n m && (s.record n).queue.isEmpty

/-- Checks 14 and 15 of R38: the refusal of a wait, if one applies. -/
def State.waitRefusal (s : State) (c : Client) (n : ResNo) (limit : Nat) : Option Status :=
  if limit = 0 ∨ (s.entry n).fieldsD.waitAllowed = false then some .busy
  else if Config.waitCap ≤ (s.waitsOf c).length then some .waitLimit
  else none

/-- GRANTED: the slot is filled, and exhaustion follows (R41). -/
def State.acquireGrant (s : State) (c : Client) (n : ResNo) (m : Mode) (term : Nat) (i : SlotNo) :
    Decision :=
  ((s.grantSlot i n c m term).exhaust n,
    { status := .granted
      extra := s.handleBytes i ++ (s.nextFence n).bytes ++ be16 ((s.entry n).fieldsD.termFor term) })

/-- QUEUED: one slot and one wait entry become the waiting acquisition (R42). -/
def State.acquireQueue (s : State) (c : Client) (n : ResNo) (m : Mode) (term limit : Nat) (rid : Byte)
    (i : SlotNo) (j : WaitNo) : Decision :=
  let r := s.record n
  let wait : Wait := { client := c, resource := n, mode := m, rid := rid }
  (((s.setBody i (.reserved { resource := n, client := c, mode := m, term := term })).setWait j
      (.queued wait (limitOf limit) i)).setRecord n { r with queue := r.queue ++ [j] },
    { status := .queued, extra := [byteOf (r.queue.length + 1)] })

/-- Checks 12 to 17: the slot, the grant, and the wait (R37, R38). -/
def State.acquirePlace (s : State) (c : Client) (n : ResNo) (m : Mode) (term limit : Nat) (rid : Byte) :
    Decision :=
  match s.freeSlot? with
  | none => s.refuse .tableFull
  | some i =>
    if s.grantsAtOnce n m then s.acquireGrant c n m term i
    else match s.waitRefusal c n limit with
      | some st => s.refuse st
      | none =>
        match s.freeWait? with
        | none => s.refuse .noWaitSpace
        | some j => s.acquireQueue c n m term limit rid i j

/-- ACQUIRE's checks from the mode code on (R37, R38). -/
def acquireDecision (c : Client) (f : Frame) (s : State) : Decision :=
  match modeOf? (byteAt f 5) with
  | none => s.refuse .badRequest
  | some m =>
    if s.part = .spent then s.refuse .epochSpent
    else match s.acquireRefusal c f.resource m with
      | some st => s.refuse st
      | none => s.acquirePlace c f.resource m (f.word 6) (f.word 8) (byteAt f 2)

/-- ACQUIRE. -/
def execAcquire (s : State) : Host.Outcome State Fault Refusal :=
  .next (s.clientRequest Kind.acquire acquireDecision)

/-! ### CANCEL_WAIT and RELEASE -/

/-- The requesting client's QUEUED wait on the resource ends CANCELLED, and the grant rule runs (R54). -/
def cancelWaitDecision (c : Client) (f : Frame) (s : State) : Decision :=
  match s.waitOf? c f.resource with
  | some j => ((s.endWaitQuiet j).grantRule f.resource, Reply.bare .ok)
  | none => s.refuse .notWaiting

/-- CANCEL_WAIT (R54). -/
def execCancelWait (s : State) : Host.Outcome State Fault Refusal :=
  .next (s.clientRequest Kind.cancelWait cancelWaitDecision)

/-- The lease ends RELEASED, and the grant rule runs (R56). -/
def releaseDecision (c : Client) (f : Frame) (s : State) : Decision :=
  s.withHandle c f none fun i l => ((s.endLeaseQuiet i).grantRule l.resource, Reply.bare .ok)

/-- RELEASE (R56). -/
def execRelease (s : State) : Host.Outcome State Fault Refusal :=
  .next (s.clientRequest Kind.release releaseDecision)

/-! ### RENEW (R82, R83) -/

/-- The slot is in REVOKING. -/
def SlotBody.isRevoking : SlotBody → Bool
  | .revoking _ _ => true
  | .free | .reserved _ | .active _ _ | .ended _ _ _ => false

/-- A resource is contended for the slot being renewed (R83). -/
def State.contended (s : State) (i : SlotNo) (n : ResNo) : Bool :=
  !(s.record n).queue.isEmpty ||
    match (s.record n).upgradePending with
    | none => false
    | some k => decide (k ≠ i)

/-- Checks 5 to 8 of R82: the refusal, if one applies. -/
def State.renewRefusal (s : State) (i : SlotNo) (l : Lease) : Option Status :=
  let e := (s.entry l.resource).fieldsD
  if (s.slot i).body.isRevoking then some .revoking
  else if (s.record l.resource).activationPending then some .superseding
  else if 0 < e.renewLimit ∧ l.renewals = e.renewLimit then some .renewLimit
  else if e.contention = .yields ∧ s.contended i l.resource = true then some .contended
  else none

/-- The renew count stops at 255 (R82). -/
def renewedCount (n : Nat) : Nat := min 255 (n + 1)

/-- The lease as a renewal leaves it (R82). -/
def Lease.renewed (term : Nat) (l : Lease) : Lease :=
  { l with
    remaining := term, granted := term, renewals := renewedCount l.renewals, warned := false }

/-- The renewal: an owed EXPIRY_WARNING is withdrawn, then the term is replaced (R82). -/
def State.renewSlot (s : State) (i : SlotNo) (l : Lease) (term : Nat) : State :=
  let s1 := if l.owed = some .expiryWarning then s.withdraw l.client.port (.slot i) else s
  s1.setBody i ((s1.slot i).body.mapLease (Lease.renewed term))

/-- RENEW's checks from the handle on (R82). -/
def renewDecision (c : Client) (f : Frame) (s : State) : Decision :=
  s.withHandle c f none fun i l =>
    match s.renewRefusal i l with
    | some st => s.refuse st
    | none =>
      let t := (s.entry l.resource).fieldsD.termFor (f.word 6)
      (s.renewSlot i l t,
        { status := .ok, extra := be16 t ++ [byteOf (renewedCount l.renewals)] })

/-- RENEW (R82). -/
def execRenew (s : State) : Host.Outcome State Fault Refusal :=
  .next (s.clientRequest Kind.renew renewDecision)

/-! ### UPGRADE, CANCEL_UPGRADE and DOWNGRADE (R63 to R73) -/

/-- Checks 6 to 10 of R64: the refusal, if one applies. -/
def State.upgradeRefusal (s : State) (i : SlotNo) (l : Lease) : Option Status :=
  let r := s.record l.resource
  if (s.slot i).body.isRevoking then some .revoking
  else if l.mode = .exclusive then some .notShared
  else if r.activationPending then some .superseding
  else if r.fenceSpent then some .fenceSpent
  else if r.upgradePending.isSome then some .upgradeConflict
  else none

/-- The upgrade is recorded as pending with its deadline (R66). -/
def State.recordUpgrade (s : State) (i : SlotNo) (l : Lease) (limit : Nat) : State :=
  let r := s.record l.resource
  (s.setRecord l.resource { r with upgradePending := some i }).setBody i (.active l (some (limitOf limit)))

/-- UPGRADE's checks from the handle on; EPOCH_SPENT comes before the handle (R64). -/
def upgradeDecision (c : Client) (f : Frame) (s : State) : Decision :=
  s.withHandle c f (if s.part = .spent then some .epochSpent else none) fun i l =>
    let n := l.resource
    match s.upgradeRefusal i l with
    | some st => s.refuse st
    | none =>
      if (s.record n).holders = [i] then
        ((s.upgradeSlot i n).exhaust n, { status := .upgraded, extra := (s.nextFence n).bytes })
      else if f.word 6 = 0 ∨ (s.entry n).fieldsD.waitAllowed = false then s.refuse .busy
      else (s.recordUpgrade i l (f.word 6), Reply.bare .queued)

/-- UPGRADE (R64). -/
def execUpgrade (s : State) : Host.Outcome State Fault Refusal :=
  .next (s.clientRequest Kind.upgrade upgradeDecision)

/-- The pending upgrade of the lease's slot is cancelled, and the grant rule runs (R71). -/
def cancelUpgradeDecision (c : Client) (f : Frame) (s : State) : Decision :=
  s.withHandle c f none fun i l =>
    if s.upgradeNames i l.resource then
      ((s.clearUpgrade l.resource).grantRule l.resource, Reply.bare .ok)
    else s.refuse .noUpgrade

/-- CANCEL_UPGRADE (R71). -/
def execCancelUpgrade (s : State) : Host.Outcome State Fault Refusal :=
  .next (s.clientRequest Kind.cancelUpgrade cancelUpgradeDecision)

/-- Checks 5 to 7 of R73: the refusal, if one applies. -/
def State.downgradeRefusal (s : State) (i : SlotNo) (l : Lease) : Option Status :=
  if (s.slot i).body.isRevoking then some .revoking
  else if l.mode = .shared then some .notExclusive
  else if (s.entry l.resource).fieldsD.kind = .exclusiveOnly then some .modeNotAllowed
  else none

/-- The slot's mode becomes SHARED and its fence is kept (R73). -/
def State.downgradeSlot (s : State) (i : SlotNo) : State :=
  s.setBody i ((s.slot i).body.mapLease fun l => { l with mode := .shared })

/-- DOWNGRADE's checks from the handle on (R73). -/
def downgradeDecision (c : Client) (f : Frame) (s : State) : Decision :=
  s.withHandle c f none fun i l =>
    match s.downgradeRefusal i l with
    | some st => s.refuse st
    | none =>
      ((s.downgradeSlot i).grantRule l.resource, { status := .ok, extra := l.fence.bytes })

/-- DOWNGRADE (R73). -/
def execDowngrade (s : State) : Host.Outcome State Fault Refusal :=
  .next (s.clientRequest Kind.downgrade downgradeDecision)

/-! ### A frame of unknown kind (R157) -/

/-- The answer to a frame of unknown kind: PART_FAULTED on a client port in FAULTED, else BAD_REQUEST. -/
def unknownKindStatus (part : PartState) : PortId → Status
  | .client _ => if part = .faulted then .partFaulted else .badRequest
  | .sup => .badRequest

/-- The response with code FFh and the header alone. -/
def unknownKindResponse (part : PartState) (r : Request) : Message :=
  { isNotice := false, code := 0xFF#8, tag := r.tagByte, rid := byteAt r.frame 2,
    status := (unknownKindStatus part r.port).code, body := [] }

/-- A frame whose kind byte names no kind of the port's set (R157). -/
def execUnknownRequestKind (s : State) : Host.Outcome State Fault Refusal :=
  match s.engine with
  | none => .next s
  | some r =>
    if s.serving && !knownKind r.port (byteAt r.frame 0) then
      .next (s.placeResponse r.port (unknownKindResponse s.part r))
    else .next s

end Sys2Proof.Machine
end

