-- ==== Sys2Proof/Machine/PortRequests.lean ====
section
/-! DEFINITION. DETACH and RESET_PORT (R116 to R118). -/

namespace Sys2Proof.Machine

/-! ### What both do -/

/-- Every record of a list leaves the owed list and is withdrawn (R112). -/
def State.withdrawAll (s : State) (p : CPort) (refs : List Ref) : State :=
  refs.foldl (fun t r => t.withdraw p r) s

/-- Waits end DETACHED, in the order given (R50). -/
def State.endWaitsQuiet (s : State) (js : List WaitNo) : State :=
  js.foldl (fun t j => t.endWaitQuiet j) s

/-- Leases end DETACHED, in the order given (R31). -/
def State.endLeasesQuiet (s : State) (ls : List SlotNo) : State :=
  ls.foldl (fun t i => t.endLeaseQuiet i) s

/-- The resources the waits of a list are queued at. -/
def State.waitResources (s : State) (js : List WaitNo) : List ResNo :=
  js.filterMap fun j => (s.wait j).queued?.map Wait.resource

/-- The resources the leases of a list are held on. -/
def State.leaseResources (s : State) (ls : List SlotNo) : List ResNo :=
  ls.filterMap fun i => (s.slot i).body.live?.map Lease.resource

/-- The resources at which a pending upgrade names one of the slots. -/
def State.upgradeResources (s : State) (ls : List SlotNo) : List ResNo :=
  ls.filterMap fun i =>
    match (s.slot i).body.live? with
    | some l => if s.upgradeNames i l.resource then some l.resource else none
    | none => none

/-- Pending upgrades are cleared with no notice (R69). -/
def State.clearUpgrades (s : State) (ns : List ResNo) : State :=
  ns.foldl (fun t n => t.clearUpgrade n) s

/-! ### DETACH (R116) -/

/-- A notice for the tag. -/
def Message.noticeFor (t : Fin 8) (m : Message) : Bool := m.isNotice && decide (m.tag = byteOf t.val)

/-- Step 1: the notices of a tag leave the queue; a READ that has fixed one finds it removed (R104). -/
def PortUnit.dropNotices (t : Fin 8) (u : PortUnit) : PortUnit :=
  let headGone := match u.queue with
    | [] => false
    | m :: _ => m.noticeFor t
  { u with
    queue := u.queue.filter fun m => !m.noticeFor t
    transfer := u.transfer.map fun x => { x with headStill := x.headStill && !headGone } }

/-- The records of a client on its port's owed list, in list order. -/
def State.owedOf (s : State) (c : Client) : List Ref :=
  (s.side c.port).owed.filter fun r => decide (s.refClient r = some c)

/-- Steps 1 to 7. Notices that a PURGE_CLIENT queued for the client are removed and counted by steps 1 and 8 as any
other, where the table of R133 has a later DETACH answered with zero counts (the model follows R116, log 29). -/
def State.detach (s : State) (c : Client) : Decision :=
  let q := PortId.client c.port
  let removed := (s.port q).queue.countP (Message.noticeFor c.tag)
  let owed := s.owedOf c
  let s1 := s.setPort q ((s.port q).dropNotices c.tag)
  let s2 := s1.withdrawAll c.port owed
  let waits := s2.waitsOf c
  let leases := s2.leasesOf c
  let touched := ascending (s2.waitResources waits ++ s2.leaseResources leases)
  let s3 := s2.endWaitsQuiet waits
  let s4 := s3.clearUpgrades (s3.upgradeResources leases)
  let s5 := s4.endLeasesQuiet leases
  let s6 := s5.grantRules touched
  (s6.deliverAllOwed c.port,
    { status := .ok
      extra := [byteOf removed, byteOf owed.length, byteOf waits.length, byteOf leases.length] })

def detachDecision (c : Client) (_f : Frame) (s : State) : Decision := s.detach c

/-- DETACH (R116). -/
def execDetach (s : State) : Host.Outcome State Fault Refusal :=
  .next (s.clientRequest Kind.detach detachDecision)

/-! ### RESET_PORT (R117) -/

/-- The client is on the port. -/
def Client.isOn (p : CPort) (c : Client) : Bool := decide (c.port = p)

/-- The QUEUED waits of a port's clients, ascending. -/
def State.portWaits (s : State) (p : CPort) : List WaitNo :=
  allWaits.filter fun j => ((s.wait j).queued?.map fun w => w.client.isOn p).getD false

/-- The leases in ACTIVE or REVOKING of a port's clients, ascending. -/
def State.portLeases (s : State) (p : CPort) : List SlotNo :=
  allSlots.filter fun i => ((s.slot i).body.live?.map fun l => l.client.isOn p).getD false

/-- Steps 1, 2 and 6 at the port unit: FIFO and queue emptied, OVERRUN and FRAME_ERROR cleared; the
reservation and RESTARTED stay, and a READ in progress finds its message removed (R104). -/
def PortUnit.cleared (u : PortUnit) : PortUnit :=
  { u with
    fifo := [], queue := [], overrun := false, frameError := false
    transfer := u.transfer.map fun x => { x with headStill := false } }

/-- Steps 1 to 7. Chapter 7.7 gives the frames discarded the range 0 to 3; a frame accepted between the DISPATCH of
the RESET_PORT and this event makes four, and the model counts it (its choice, log 33). -/
def State.resetPort (s : State) (p : CPort) : Decision :=
  let u := s.port (.client p)
  let owed := (s.side p).owed
  let s1 := s.setPort (.client p) u.cleared
  let s2 := s1.withdrawAll p owed
  let waits := s2.portWaits p
  let all := s2.portLeases p
  let ending := match (s.side p).policy with
    | .release => all
    | .orphan => []
  let s3 := s2.endWaitsQuiet waits
  let upgrades := s3.upgradeResources all
  let touched := ascending (s2.waitResources waits ++ upgrades ++ s2.leaseResources ending)
  let s4 := s3.clearUpgrades upgrades
  let s5 := s4.endLeasesQuiet ending
  (s5.grantRules touched,
    { status := .ok
      extra := [byteOf u.fifo.length, byteOf u.queue.length, byteOf owed.length, byteOf waits.length,
        byteOf ending.length] })

def resetPortDecision (c : Client) (_f : Frame) (s : State) : Decision := s.resetPort c.port

/-- RESET_PORT (R117). -/
def execResetPort (s : State) : Host.Outcome State Fault Refusal :=
  .next (s.clientRequest Kind.resetPort resetPortDecision)

end Sys2Proof.Machine
end

