-- ==== Sys2Proof/Machine/Queries.lean ====
section
/-! DEFINITION. The client requests that only read: VERIFY, QUERY_RESOURCE, QUERY_LEASE and LIST_MINE (chapter 6). -/

namespace Sys2Proof.Machine

/-! ### VERIFY (R91, R93) -/

/-- A fence from four bytes; epoch 0 and sequence 0 are never issued (R91). -/
def fenceOf? (epoch seq : Nat) : Option Fence :=
  if epoch = 0 ∨ seq = 0 then none else some { epoch := epoch, seq := seq }

/-- The holder of the resource whose lease carries the fence (R91, step 4). -/
def State.holderOf? (s : State) (n : ResNo) (x : Fence) : Option (SlotNo × Lease) :=
  (s.record n).holders.findSome? fun i =>
    match (s.slot i).body.live? with
    | some l => if l.fence = x then some (i, l) else none
    | none => none

/-- The judgement of a fence (R91); in SPENT by its epoch alone (R93). -/
def State.judge (s : State) (n : ResNo) (x : Fence) : Reply :=
  if s.part = .spent then Reply.bare (if x.epoch ≤ s.epoch then .priorEpoch else .neverIssued)
  else if x.epoch < s.epoch then Reply.bare .priorEpoch
  else if s.epoch < x.epoch then Reply.bare .neverIssued
  else if (s.record n).lastSeq < x.seq then Reply.bare .neverIssued
  else match s.holderOf? n x with
    | some (i, l) =>
      { status := .current, extra := [l.mode.code, (s.slot i).body.code, l.client.number] }
    | none => Reply.bare .stale

def verifyDecision (_c : Client) (f : Frame) (s : State) : Decision :=
  match fenceOf? (f.word 5) (f.word 7) with
  | none => s.refuse .badRequest
  | some x => (s, s.judge f.resource x)

/-- VERIFY (R91, R93). -/
def execVerify (s : State) : Host.Outcome State Fault Refusal :=
  .next (s.clientRequest Kind.verify verifyDecision)

/-! ### QUERY_RESOURCE (R96, Table 11-4) -/

/-- The client and mode of a holder. -/
def State.holderBytes (s : State) (i : SlotNo) : List Byte :=
  match (s.slot i).body.live? with
  | some l => [l.client.number, l.mode.code]
  | none => [0xFF#8, 0x00#8]

/-- The client whose upgrade is pending at the resource. -/
def State.upgradeClient (s : State) (n : ResNo) : Option Client :=
  (s.record n).upgradePending.bind fun i => (s.slot i).body.client?

/-- The last fence issued, absent when none was (R96). -/
def State.lastFence (s : State) (n : ResNo) : Option Fence :=
  if (s.record n).lastSeq = 0 then none
  else some { epoch := s.epoch, seq := (s.record n).lastSeq }

/-- The resource report. -/
def State.resourceReport (s : State) (n : ResNo) : List Byte :=
  let r := s.record n
  (s.entry n).report ++ [heldCode (s.modeHeld n), byteOf r.holders.length]
    ++ r.holders.flatMap s.holderBytes
    ++ [byteOf r.queue.length, clientByte (s.upgradeClient n), flagByte r.activationPending]
    ++ fenceBytes (s.lastFence n)

def queryResourceDecision (_c : Client) (f : Frame) (s : State) : Decision :=
  (s, { status := .ok, extra := s.resourceReport f.resource })

/-- QUERY_RESOURCE (R96). -/
def execQueryResource (s : State) : Host.Outcome State Fault Refusal :=
  .next (s.clientRequest Kind.queryResource queryResourceDecision)

/-! ### QUERY_LEASE (R98) -/

/-- The handle check without the owner check (R98). -/
def queryLeaseDecision (_c : Client) (f : Frame) (s : State) : Decision :=
  match slotOf? (byteAt f 4) with
  | none => s.refuse .badRequest
  | some i =>
    match s.accept i (byteAt f 5) with
    | none => s.refuse .staleHandle
    | some l =>
      (s, { status := .ok
            extra := s.slotSnapshot i ++ [l.client.number] ++ be16 l.granted ++ [byteOf l.renewals] })

/-- QUERY_LEASE (R98). -/
def execQueryLease (s : State) : Host.Outcome State Fault Refusal :=
  .next (s.clientRequest Kind.queryLease queryLeaseDecision)

/-! ### LIST_MINE (R99) -/

/-- The condition byte of a lease (chapter 11.3). -/
def conditionCode (m : Mode) (revoking upgrade : Bool) : Byte :=
  match m, revoking, upgrade with
  | .shared, false, false => 0x01#8
  | .exclusive, false, _ => 0x02#8
  | .shared, true, _ => 0x03#8
  | .exclusive, true, _ => 0x04#8
  | .shared, false, true => 0x05#8

/-- One item of the leases list. -/
def State.leaseItem (s : State) (i : SlotNo) : List Byte :=
  match (s.slot i).body.live? with
  | none => []
  | some l =>
    s.handleBytes i ++ [byteOf l.resource.val,
      conditionCode l.mode (s.slot i).body.isRevoking (s.upgradeNames i l.resource)]

/-- One item of the waits list. -/
def State.waitItem (s : State) (j : WaitNo) : List Byte :=
  match (s.wait j).queued? with
  | none => []
  | some w =>
    [byteOf w.resource.val, w.mode.code, byteOf (positionIn j (s.record w.resource).queue)]

def listMineDecision (c : Client) (_f : Frame) (s : State) : Decision :=
  let ls := s.leasesOf c
  let ws := s.waitsOf c
  (s, { status := .ok
        extra := [byteOf ls.length, byteOf ws.length] ++ ls.flatMap s.leaseItem
          ++ ws.flatMap s.waitItem })

/-- LIST_MINE (R99). -/
def execListMine (s : State) : Host.Outcome State Fault Refusal :=
  .next (s.clientRequest Kind.listMine listMineDecision)

end Sys2Proof.Machine
end

