-- ==== Sys2Proof/Machine/Plans.lean ====
section
/-! DEFINITION. The plans of the directory store: the steps of an operation or of the header work on the array, what
they leave when they fail, and what they leave when they are cut short (R142 to R148, R151 to R153). -/

namespace Sys2Proof.Machine

/-- The page is valid as the array holds it (R150). -/
def validPage (m : List Host.Cell) (h : HPage) : Bool := headerValid (headerOf m h)

/-- Bytes 0 to 9 of a header page, which make it valid (R150, Table 11-8). -/
def validityBytes : Nat := 10

/-- One step of an operation: what it does, the step named when the read-back fails (R145, R146, R153; `none` where a
failure does not end the work, R143, R151, R153), and how many bytes from its address on a failure leaves as they
were (R145, step 3; log 6). -/
structure PlanStep where
  act : ArrayAct
  onFail : Option Nat
  spares : Nat := 0
  deriving DecidableEq, Repr

/-- The address an action begins at. -/
def ArrayAct.addr : ArrayAct → Nat
  | .erase a _ => a
  | .program a _ => a

/-- The header page an action erases. -/
def ArrayAct.erasesPage : ArrayAct → Option HPage
  | .erase a _ =>
    if a = headerAddr .h0 then some .h0 else if a = headerAddr .h1 then some .h1 else none
  | .program _ _ => none

/-- A header page whose erase failed or was cut short is invalid, or valid with the bytes that made it so before: no
such erase makes a page valid with another base (R151, R155; log 6). An outcome that would is read as one in which
those bytes kept their content. -/
def ArrayAct.settle (act : ArrayAct) (m m' : List Host.Cell) : List Host.Cell :=
  match act.erasesPage with
  | some h =>
    if validPage m' h then
      Memory.writeBytes m' (headerAddr h) (Memory.readBytes m (headerAddr h) validityBytes)
    else m'
  | none => m'

/-- The bytes a failed step spares are as they were before it. -/
def PlanStep.spare (st : PlanStep) (m m' : List Host.Cell) : List Host.Cell :=
  Memory.writeBytes m' st.act.addr (Memory.readBytes m st.act.addr st.spares)

/-- What a plan left: the array, the step that failed, and whether an erase that does not
end the work was left incomplete. -/
structure PlanResult where
  array : List Host.Cell
  failed : Option Nat
  incomplete : Bool
  deriving DecidableEq, Repr

/-- The steps in order; a failed read-back ends the work where a step is named. -/
def runPlan : List PlanStep → Quirks → List Host.Cell → PlanResult
  | [], _, m => { array := m, failed := none, incomplete := false }
  | st :: rest, q, m =>
    let m' := st.act.settle m (st.act.run m (q.headD none))
    if st.act.readsBack m' then runPlan rest q.tail m'
    else match st.onFail with
      | some f => { array := st.spare m m', failed := some f, incomplete := false }
      | none => { runPlan rest q.tail m' with incomplete := true }

/-- A step that may be cut short: it leaves whatever it has done, and spares nothing (R148). -/
def PlanStep.exposed (st : PlanStep) : PlanStep := { st with spares := 0 }

/-- A plan interrupted: only the steps of which the array has done something (R148; log 6). -/
def interruptPlan (plan : List PlanStep) (done : Quirks) (m : List Host.Cell) : List Host.Cell :=
  (runPlan ((plan.take done.length).map PlanStep.exposed) done m).array

end Sys2Proof.Machine
end

