-- ==== Sys2Proof/Machine/Pipeline.lean ====
section
/-! DEFINITION. The directory store's pipeline: what each operation does to the array, step by step, and what
its completion event does (R141 to R146). -/

namespace Sys2Proof.Machine

/-! ### What an operation does to the array -/

/-- A header page written afresh (R145, R146, R152, R161): erase it (1), then program base and settings, then the
CRC-16, then the complete marker (2), each read back. `head` is bytes 0 to 8. -/
def writePagePlan (target : HPage) (head : List Byte) : List PlanStep :=
  [ { act := .erase (headerAddr target) Config.headerBytes, onFail := some 1 },
    { act := .program (headerAddr target) (head.take 7), onFail := some 2 },
    { act := .program (headerAddr target + 7) (head.drop 7), onFail := some 2 },
    { act := .program (headerAddr target + 9) [0x00#8], onFail := some 2 } ]

/-- A header page written afresh and the other one erased (3); a failed erase of the other spares its first `spares`
bytes: in a WRITE_SETTINGS those that make it valid, so that both pages are valid (R145, R146; log 6). -/
def headerPlan (target : HPage) (head : List Byte) (spares : Nat) : List PlanStep :=
  writePagePlan target head ++
    [{ act := .erase (headerAddr target.other) Config.headerBytes, onFail := some 3, spares := spares }]

/-- An erase of a directory page; a failure is found by reading every image afterwards (R143). -/
def erasePageStep (p : PageNo) : PlanStep :=
  { act := .erase (pageAddr p) pageBytes, onFail := none }

/-- The header page a header operation writes: the page that is not active, and H0 in FAULTED (R145, R146). -/
def State.headerTarget (s : State) : HPage :=
  if s.part = .faulted then .h0
  else match s.active with
    | some h => h.other
    | none => .h0

/-- The settings INIT_HEADER writes: the active page's in SPENT, the defaults in FAULTED (R146; log 21). -/
def State.initSettings (s : State) : List Byte :=
  if s.part = .faulted then Settings.defaults.bytes
  else match s.active with
    | some h => ((headerOf s.array h).drop 2).take 5
    | none => Settings.defaults.bytes

/-- The steps of an operation on the array. An INIT_HEADER that fails or is cut short may leave no page that accounts for
the epochs opened before, and the next start-up may then open one of them with no INIT_HEADER completed: the model
follows the steps here and not R155's law (its choice, log 32). -/
def State.planOf (s : State) : StoreOp → List PlanStep
  | .programEntry n image =>
    if blank (imageOf s.array n) then
      [{ act := .program (entryAddr n) (sealImage image), onFail := some 1 }]
    else []
  | .erasePage p => [erasePageStep p]
  | .eraseDirectory => (List.finRange 16).map erasePageStep
  | .blankCheck _ | .scanCrc => []
  | .writeSettings t => headerPlan s.headerTarget (headerHead s.epoch t.bytes) validityBytes
  | .initHeader base => headerPlan s.headerTarget (headerHead base s.initSettings) 0

/-! ### An operation cut short (R148) -/

/-- The entries of a directory page, ascending (R135). -/
def entriesOn (p : PageNo) : List ResNo := allResources.filter fun n => decide (pageOf n = p.val)

/-- An entry after the operation that was changing it is cut short: fully as the operation would have it (`goal`),
DAMAGED, or as it was before; an outcome the table of R148 rules out is read as an operation that had not reached
the entry (log 6). -/
def settleImage (old : List Host.Cell) (goal : List Byte) (m : List Host.Cell) (n : ResNo) : List Host.Cell :=
  if imageOf m n = goal ∨ classify (imageOf m n) = .damaged then m
  else Memory.writeBytes m (entryAddr n) (imageOf old n)

/-- The 24 bytes of a blank image. -/
def blankImage : List Byte := List.replicate Config.imageBytes Config.erased

/-- The entries an operation changes, and what it makes of each. -/
def StoreOp.goals : StoreOp → List (ResNo × List Byte)
  | .programEntry n image => [(n, sealImage image)]
  | .erasePage p => (entriesOn p).map fun n => (n, blankImage)
  | .eraseDirectory => allResources.map fun n => (n, blankImage)
  | .blankCheck _ | .scanCrc | .writeSettings _ | .initHeader _ => []

/-- The array an operation leaves when it is cut short after what `done` says it did (R148). -/
def State.cutShort (s : State) (op : StoreOp) (done : Quirks) : List Host.Cell :=
  op.goals.foldl (fun m g => settleImage s.array g.2 m g.1) (interruptPlan (s.planOf op) done s.array)

/-- The active page a WRITE_SETTINGS leaves when it is cut short: the page written, once its complete marker has read
back programmed (R145). -/
def State.activeCutShort (s : State) (op : StoreOp) (done : Quirks) : Option HPage :=
  match op with
  | .writeSettings t =>
    let steps := writePagePlan s.headerTarget (headerHead s.epoch t.bytes)
    if steps.length ≤ done.length ∧ (runPlan steps done s.array).failed = none then some s.headerTarget
    else s.active
  | .programEntry _ _ | .erasePage _ | .eraseDirectory | .blankCheck _ | .scanCrc | .initHeader _ => s.active

/-! ### Results (Table 9-1, Table 11-5) -/

/-- The lowest entry of a list that is not blank. -/
def lowestNotBlank (m : List Host.Cell) (ns : List ResNo) : Option ResNo :=
  ns.find? fun n => !blank (imageOf m n)

/-- An entry with the presence byte before it (chapter 11.3; log 16). -/
def presenceBytes : Option ResNo → List Byte
  | none => [0x00#8]
  | some n => [0x01#8, byteOf n.val]

/-- The three counts of a directory, DEFINED, UNDEFINED and DAMAGED, as six bytes. -/
def countBytes (es : List Entry) : List Byte :=
  be16 (es.countP fun e => e.code == 0x01#8) ++ be16 (es.countP fun e => e.code == 0x00#8)
    ++ be16 (es.countP fun e => e.code == 0x02#8)

/-- The directory the array holds, classified (R1). -/
def loadDirectory (m : List Host.Cell) : List Entry := allResources.map fun n => classify (imageOf m n)

/-- The lowest DAMAGED entry (R144). -/
def lowestDamaged (m : List Host.Cell) : Option ResNo :=
  allResources.find? fun n => decide (classify (imageOf m n) = .damaged)

/-- The operand byte of STORE_DONE: entry or page, FFh for ALL, 00h otherwise (chapter 11.3). -/
def StoreOp.operandByte : StoreOp → Byte
  | .programEntry n _ => byteOf n.val
  | .erasePage p => byteOf p.val
  | .blankCheck (some p) => byteOf p.val
  | .blankCheck none => 0xFF#8
  | .eraseDirectory | .scanCrc | .writeSettings _ | .initHeader _ => 0x00#8

/-- The operands of STORE_SKIPPED, without an image (R141; log 16). -/
def StoreOp.operandBytes : StoreOp → List Byte
  | .programEntry n _ => [byteOf n.val]
  | .erasePage p => [byteOf p.val]
  | .blankCheck (some p) => [byteOf p.val]
  | .blankCheck none => [0xFF#8]
  | .writeSettings t => t.bytes
  | .initHeader base => be16 base
  | .eraseDirectory | .scanCrc => []

/-- The outcome code of STORE_DONE. -/
def outcomeCode : Option StoreFault → Byte
  | none => 0x00#8
  | some f => f.code

def storeDone (op : StoreOp) (fault : Option StoreFault) (result : List Byte) : Message :=
  supNotice 0xE1#8 (outcomeCode fault) ([op.code, op.operandByte] ++ padTo 8 result)

def storeSkipped (op : StoreOp) : Message :=
  supNotice 0xE2#8 0x00#8 (op.code :: padTo 5 op.operandBytes)

/-! ### The completion event (R141) -/

/-- Step 4: a LAUNCHED command behind a fault is dropped. -/
def State.skipLaunched (s : State) : State :=
  match s.store.stage with
  | .launched op => (s.setStore { s.store with stage := .empty }).raiseStoreNotice (storeSkipped op)
  | .empty | .held _ => s

/-- Steps 1 to 5: IDLE, the fault, STORE_DONE, and then the skip or the start of a launched command. -/
def State.finishOp (s : State) (op : StoreOp) (fault : Option StoreFault) (result : List Byte) : State :=
  let s1 := s.setStore
    { s.store with running := none, fault := if fault.isSome then fault else s.store.fault }
  let s2 := s1.raiseStoreNotice (storeDone op fault result)
  if fault.isSome then s2.skipLaunched else s2.setStore s2.store.startLaunched

/-- What an operation has come to: the array, the fault, the result values, and the active header page. -/
structure OpResult where
  array : List Host.Cell
  fault : Option StoreFault
  result : List Byte
  active : Option HPage
  deriving DecidableEq, Repr

/-- PROGRAM_ENTRY (R142); its result is entry n at every outcome (Table 9-1; log 16). -/
def State.runProgramEntry (s : State) (n : ResNo) (image : List Byte) (phys : Quirks) : OpResult :=
  let r := runPlan (s.planOf (.programEntry n image)) phys s.array
  { array := r.array
    fault := if !blank (imageOf s.array n) then some .notBlank
      else if r.failed.isSome then some .verifyFailed
      else none
    result := presenceBytes (some n)
    active := s.active }

/-- ERASE_PAGE and ERASE_DIRECTORY: erase, and then read the images of `ns` (R143). -/
def State.runErase (s : State) (op : StoreOp) (ns : List ResNo) (phys : Quirks) : OpResult :=
  let r := runPlan (s.planOf op) phys s.array
  let low := lowestNotBlank r.array ns
  { array := r.array
    fault := if low.isSome then some .eraseFailed else none
    result := if low.isSome then presenceBytes low else []
    active := s.active }

/-- BLANK_CHECK and SCAN_CRC read only (R144). -/
def State.runCheck (s : State) (result : List Byte) : OpResult :=
  { array := s.array, fault := none, result := result, active := s.active }

/-- WRITE_SETTINGS: the page written is active once its marker reads back (R145), which is in this event, with the
rest of the operation (log 30). -/
def State.runWriteSettings (s : State) (t : Settings) (phys : Quirks) : OpResult :=
  let r := runPlan (s.planOf (.writeSettings t)) phys s.array
  let target := s.headerTarget
  match r.failed with
  | none =>
    { array := r.array, fault := none, result := target.code :: be16 s.epoch, active := some target }
  | some step =>
    { array := r.array, fault := some .headerFailed, result := [byteOf step],
      active := if step = 3 then some target else s.active }

/-- INIT_HEADER (R146; log 21). -/
def State.runInitHeader (s : State) (base : Nat) (phys : Quirks) : OpResult :=
  let r := runPlan (s.planOf (.initHeader base)) phys s.array
  match r.failed with
  | none => { array := r.array, fault := none, result := [], active := s.active }
  | some step =>
    { array := r.array, fault := some .headerFailed, result := [byteOf step], active := s.active }

/-- The result reaches the array, and the completion event follows (R141). The spec gives an operation a start and a
completion and not the moment between them at which it reads and changes the array: the model does the whole of it
at the completion, or, where the operation is cut short, at the loss (the model's choice, log 30). -/
def State.complete (s : State) (op : StoreOp) (r : OpResult) : State :=
  State.finishOp { s with array := r.array, active := r.active } op r.fault r.result

end Sys2Proof.Machine
end

