-- ==== Sys2Proof/Machine/StartUp.lean ====
section
/-! DEFINITION. Supply, RESET# and start-up: how a start-up begins, its header work, its load, and its report
(chapter 10, R100, R148, R149). -/

namespace Sys2Proof.Machine

/-! ### The beginning (R149) -/

/-- A port unit at the beginning of a start-up; a READ in progress finds its message removed (R100, R104). -/
def PortUnit.atStartUp (u : PortUnit) : PortUnit :=
  { u with
    fifo := [], queue := [], reserved := false, overrun := false, frameError := false
    transfer := u.transfer.map fun t => { t with headStill := false } }

/-- The beginning of a start-up (R149, R100, R4, R9, R20, R76, R108, R136; log 20). -/
def State.startUpBegin (s : State) : State :=
  { s with
    part := .starting
    epoch := 0
    ports := vmap PortUnit.atStartUp s.ports
    sides := vmap (fun v => { v with owed := [] }) s.sides
    rotation := .sup
    engine := none
    records := Vector.replicate 256 Record.empty
    activations := []
    slots := Vector.replicate 128 Slot.initial
    waits := Vector.replicate 48 .free
    run := .run
    divider := 0
    leaseTicks := 0
    waitTicks := 0
    upgradeTicks := 0
    store := Store.initial }

/-! ### Header work (R150 to R153) -/

/-- The active header page a start-up selects (R151). -/
def selectHeader (m : List Host.Cell) : Option HPage :=
  if validPage m .h0 then
    if validPage m .h1 then
      if headerBase (headerOf m .h0) < headerBase (headerOf m .h1) then some .h1 else some .h0
    else some .h0
  else if validPage m .h1 then some .h1
  else none

/-- Both pages are valid, so the other one is cleaned up (R151). -/
def needsCleanup (m : List Host.Cell) : Bool := validPage m .h0 && validPage m .h1

/-- b + k of a page: the highest epoch its marks account for (chapter 10.1). -/
def lastEpoch (m : List Host.Cell) (h : HPage) : Nat :=
  headerBase (headerOf m h) + marksUsed (headerOf m h)

/-- Step 1 of R152: the epoch space is used up. -/
def spaceUsed (m : List Host.Cell) (h : HPage) : Bool := decide (Config.last16 < lastEpoch m h + 1)

/-- Step 2 of R152 applies. -/
def needsRollover (m : List Host.Cell) (h : HPage) : Bool :=
  !spaceUsed m h && decide (marksUsed (headerOf m h) = Config.marks)

/-- The programming of mark `k + 1` of a page (R152, Table 11-8). -/
def markStep (h : HPage) (k : Nat) : PlanStep :=
  { act := .program (headerAddr h + 16 + k) [0x00#8], onFail := some 3 }

/-- The header work of a start-up on an array, once page `h` is selected (R151, R152, R153). -/
def headerWork (m : List Host.Cell) (h : HPage) : List PlanStep :=
  let cleanup : List PlanStep :=
    if needsCleanup m then
      [{ act := .erase (headerAddr h.other) Config.headerBytes, onFail := none }]
    else []
  let page := headerOf m h
  if spaceUsed m h then cleanup
  else if needsRollover m h then
    cleanup ++
      writePagePlan h.other (headerHead (headerBase page + Config.marks) ((page.drop 2).take 5)) ++
      [ { act := .erase (headerAddr h) Config.headerBytes, onFail := none },
        markStep h.other 0 ]
  else cleanup ++ [markStep h (marksUsed page)]

/-- The header work the array calls for. -/
def startUpPlan (m : List Host.Cell) : List PlanStep :=
  match selectHeader m with
  | none => []
  | some h => headerWork m h

/-- The outcomes of START_REPORT. -/
inductive StartOutcome where
  | normal | cleaned | rolledOver | cleanupIncomplete | epochSpaceUsed | noValidHeader
  | headerWriteFailed (step : Nat)
  deriving DecidableEq, Repr

/-- Their codes (chapter 11.3). -/
def StartOutcome.code : StartOutcome → Byte
  | .normal => 0x00#8
  | .cleaned => 0x01#8
  | .rolledOver => 0x02#8
  | .cleanupIncomplete => 0x03#8
  | .epochSpaceUsed => 0x04#8
  | .noValidHeader => 0x05#8
  | .headerWriteFailed _ => 0x06#8

/-- The failed step, or 00h. -/
def StartOutcome.step : StartOutcome → Byte
  | .headerWriteFailed f => byteOf f
  | .normal | .cleaned | .rolledOver | .cleanupIncomplete | .epochSpaceUsed | .noValidHeader => 0x00#8

/-- What the header work of a start-up came to. -/
structure StartResult where
  array : List Host.Cell
  part : PartState
  epoch : Nat
  active : Option HPage
  outcome : StartOutcome
  deriving DecidableEq, Repr

/-- The page active once the work from page `h` ended: a rollover moves to the other page unless its
erase or its programming failed (R152, R153, R154). -/
def activeAfter (m : List Host.Cell) (h : HPage) (failed : Option Nat) : HPage :=
  if needsRollover m h then
    match failed with
    | none => h.other
    | some f => if f = 3 then h.other else h
  else h

/-- No valid header page was found: no header work (R151). -/
def noHeader (m : List Host.Cell) : StartResult :=
  { array := m, part := .faulted, epoch := 0, active := none, outcome := .noValidHeader }

/-- The header work done, with the outcome of highest precedence (R153, R154). -/
def startUpWork (m : List Host.Cell) (phys : Quirks) : StartResult :=
  match selectHeader m with
  | none => noHeader m
  | some h =>
    let r := runPlan (headerWork m h) phys m
    let active := some (activeAfter m h r.failed)
    match r.failed with
    | some f =>
      { array := r.array, part := .faulted, epoch := 0, active := active,
        outcome := .headerWriteFailed f }
    | none =>
      if spaceUsed m h then
        { array := r.array, part := .spent, epoch := lastEpoch m h, active := active,
          outcome := .epochSpaceUsed }
      else
        { array := r.array, part := .ready, epoch := lastEpoch m h + 1, active := active,
          outcome :=
            if r.incomplete then .cleanupIncomplete
            else if needsRollover m h then .rolledOver
            else if needsCleanup m then .cleaned
            else .normal }

/-- The header work of a start-up: where the reading of the header pages fails in passing, no page reads valid, and a
later start-up reads them again (R156; log 7). -/
def startUpFound (m : List Host.Cell) (run : StartUpRun) : StartResult :=
  if run.readFails then noHeader m else startUpWork m run.phys

/-! ### Load and completion (R154) -/

/-- The settings in force: the active page's, and the defaults in FAULTED (R154). -/
def StartResult.settings (r : StartResult) : Settings :=
  if r.part = .faulted then Settings.defaults
  else match r.active with
    | some h => (headerSettings? (headerOf r.array h)).getD Settings.defaults
    | none => Settings.defaults

/-- Active page: H0 00h, H1 01h, NONE FFh. -/
def activeByte : Option HPage → Byte
  | none => 0xFF#8
  | some h => h.code

/-- Marks used of the active page, as it then reads. -/
def StartResult.marks (r : StartResult) : Nat :=
  match r.active with
  | none => 0
  | some h => marksUsed (headerOf r.array h)

/-- START_REPORT (R154, Table 11-5). Its epoch field has two bytes: of an epoch above 65535, which a SPENT part shows
where disturbed marks carry b + k past the epoch space (R150, R152), it holds the low 16 bits (log 31). -/
def StartResult.report (r : StartResult) : Message :=
  supNotice 0xE4#8 0x00#8
    (be16 r.epoch ++ [r.part.code] ++ countBytes (loadDirectory r.array)
      ++ [activeByte r.active, byteOf r.marks, r.outcome.code, r.outcome.step])

/-- Load, part state, ports and time, and the report, in that order (R154). -/
def State.load (s : State) (r : StartResult) : State :=
  let t := r.settings
  let s1 : State :=
    { s with
      array := r.array
      active := r.active
      part := r.part
      epoch := r.epoch
      entries := ⟨⟨loadDirectory r.array⟩, by simp [loadDirectory, allResources]⟩
      ports := vmap (fun u => { u with restarted := true }) s.ports
      prescale := t.prescale }
  let s2 := allClientPorts.foldl (fun u p => u.setSide p { u.side p with policy := t.policy p }) s1
  s2.pushMessage .sup r.report

/-- START-UP COMPLETE (R149, R154; log 22). -/
def execStartUpComplete (run : StartUpRun) (s : State) : Host.Outcome State Fault Refusal :=
  .next (if s.alive && decide (s.part = .starting) then s.load (startUpFound s.array run) else s)

/-! ### Supply and RESET# (R148, R149; log 19) -/

/-- What is left of the array when the operation or the header work in progress is lost (R148, R149). -/
def State.interrupted (s : State) (done : Quirks) : List Host.Cell :=
  if s.alive then
    match s.store.running with
    | some op => s.cutShort op done
    | none =>
      if s.part = .starting then interruptPlan (startUpPlan s.array) done s.array else s.array
  else s.array

/-- The active header page as the loss leaves it (R145). -/
def State.activeInterrupted (s : State) (done : Quirks) : Option HPage :=
  if s.alive then
    match s.store.running with
    | some op => s.activeCutShort op done
    | none => s.active
  else s.active

/-- POWER-ON begins a start-up, once RESET# is high (R149). -/
def execPowerOn (s : State) : Host.Outcome State Fault Refusal :=
  if s.powered then .next s
  else
    let s1 := { s with powered := true }
    .next (if s.resetLow then s1 else s1.startUpBegin)

/-- The falling edge of RESET#: what runs is lost, transactions end, and nothing proceeds (R100, R148, R149). -/
def execResetAssert (done : Quirks) (s : State) : Host.Outcome State Fault Refusal :=
  if s.resetLow then .next s
  else .next
    { s with
      array := s.interrupted done
      active := s.activeInterrupted done
      resetLow := true
      ports := vmap (fun u => { u with transfer := none }) s.ports
      store := { s.store with running := none } }

/-- The rising edge of RESET# begins a start-up (R149). -/
def execResetRelease (s : State) : Host.Outcome State Fault Refusal :=
  if s.resetLow then
    let s1 := { s with resetLow := false }
    .next (if s.powered then s1.startUpBegin else s1)
  else .next s

/-- POWER LOSS: the array keeps what was done, everything volatile is lost (R148, R149; log 19). -/
def execPowerLoss (done : Quirks) (s : State) : Host.Outcome State Fault Refusal :=
  if s.powered then
    .next { State.reset with
      powered := false, resetLow := s.resetLow, array := s.interrupted done, pending := s.pending }
  else .next s

/-- RESTART: the operation running is lost and a start-up begins, with no response (R134). -/
def execRestart (done : Quirks) (s : State) : Host.Outcome State Fault Refusal :=
  .next <|
    if s.serving then
      match s.engine with
      | some ⟨.sup, f⟩ =>
        if byteAt f 0 = Kind.restart.code then
          if formOk Kind.restart ⟨.sup, f⟩ then
            State.startUpBegin
              { s with array := s.interrupted done, active := s.activeInterrupted done }
          else s.answer Kind.restart ⟨.sup, f⟩ (Reply.bare .badRequest)
        else s
      | some ⟨.client _, _⟩ => s
      | none => s
    else s

end Sys2Proof.Machine
end

