-- ==== Sys2Proof/Machine/StoreCompletions.lean ====
section
/-! DEFINITION. The completion events of the store's operations and the start of a launched command (R141 to R146). -/

namespace Sys2Proof.Machine

/-- The running operation, while the part proceeds (R149, R136). -/
def State.runningOp (s : State) : Option StoreOp := if s.serving then s.store.running else none

/-- PROGRAM_ENTRY completes (R142). -/
def execProgramEntryComplete (phys : Quirks) (s : State) : Host.Outcome State Fault Refusal :=
  match s.runningOp with
  | some (.programEntry n image) =>
    .next (s.complete (.programEntry n image) (s.runProgramEntry n image phys))
  | _ => .next s

/-- ERASE_PAGE completes (R143). -/
def execErasePageComplete (phys : Quirks) (s : State) : Host.Outcome State Fault Refusal :=
  match s.runningOp with
  | some (.erasePage p) =>
    .next (s.complete (.erasePage p) (s.runErase (.erasePage p) (entriesOn p) phys))
  | _ => .next s

/-- ERASE_DIRECTORY completes (R143). -/
def execEraseDirectoryComplete (phys : Quirks) (s : State) : Host.Outcome State Fault Refusal :=
  match s.runningOp with
  | some .eraseDirectory =>
    .next (s.complete .eraseDirectory (s.runErase .eraseDirectory allResources phys))
  | _ => .next s

/-- The entries a BLANK_CHECK reads. -/
def checkedEntries : Option PageNo → List ResNo
  | none => allResources
  | some p => entriesOn p

/-- BLANK_CHECK completes (R144). -/
def execBlankCheckComplete (s : State) : Host.Outcome State Fault Refusal :=
  match s.runningOp with
  | some (.blankCheck p) =>
    .next (s.complete (.blankCheck p)
      (s.runCheck (presenceBytes (lowestNotBlank s.array (checkedEntries p)))))
  | _ => .next s

/-- SCAN_CRC completes (R144). -/
def execScanCrcComplete (s : State) : Host.Outcome State Fault Refusal :=
  match s.runningOp with
  | some .scanCrc =>
    .next (s.complete .scanCrc
      (s.runCheck (countBytes (loadDirectory s.array) ++ presenceBytes (lowestDamaged s.array))))
  | _ => .next s

/-- WRITE_SETTINGS completes (R145). -/
def execWriteSettingsComplete (phys : Quirks) (s : State) : Host.Outcome State Fault Refusal :=
  match s.runningOp with
  | some (.writeSettings t) =>
    .next (s.complete (.writeSettings t) (s.runWriteSettings t phys))
  | _ => .next s

/-- INIT_HEADER completes: OK begins a start-up with no STORE_DONE (R146). -/
def execInitHeaderComplete (phys : Quirks) (s : State) : Host.Outcome State Fault Refusal :=
  match s.runningOp with
  | some (.initHeader base) =>
    let r := s.runInitHeader base phys
    .next
      (if r.fault.isNone then State.startUpBegin { s with array := r.array }
       else s.complete (.initHeader base) r)
  | _ => .next s

/-- A LAUNCHED command starts when the store is ready (R136, R141; log 12). -/
def execLaunchedCommandStart (s : State) : Host.Outcome State Fault Refusal :=
  .next (if s.serving then s.setStore s.store.startLaunched else s)

end Sys2Proof.Machine
end

