-- ==== Sys2Proof/Machine/SupervisorActions.lean ====
section
/-! DEFINITION. The supervisor's actions on leases, SET_TIMEBASE, ACTIVATE and CANCEL_ACTIVATION (R130 to R132, R77,
R10 to R12, R16). -/

namespace Sys2Proof.Machine

/-! ### REVOKE and REVOKE_RESOURCE -/

/-- The grace of a revocation: the number asked, or the grace of the working entry in force (R85). -/
def State.graceFor (s : State) (n : ResNo) (asked : Option Nat) : Nat :=
  asked.getD (s.entry n).fieldsD.grace

/-- A lease in ACTIVE is revoked by R85, grant rule included. -/
def State.revokeOne (s : State) (i : SlotNo) (n : ResNo) (grace : Nat) : State :=
  let s1 := s.revokeSlot i grace
  if grace = 0 ∨ s.upgradeNames i n = true then s1.grantRule n else s1

def revokeDecision (f : Frame) (s : State) : Decision :=
  match slotOf? (byteAt f 4), graceOf? (byteAt f 6) (byteAt f 7) with
  | some i, some g =>
    match s.accept i (byteAt f 5) with
    | none => s.refuse .staleHandle
    | some l =>
      if (s.slot i).body.isRevoking then s.refuse .revoking
      else (s.revokeOne i l.resource (s.graceFor l.resource g), Reply.bare .ok)
  | _, _ => s.refuse .badRequest

/-- REVOKE (R130). -/
def execRevoke (s : State) : Host.Outcome State Fault Refusal :=
  .next (s.supRequest Kind.revoke revokeDecision)

/-- Every listed lease is revoked in turn, without the grant rule (R131, R12). -/
def State.revokeAll (s : State) (ls : List SlotNo) (grace : Nat) : State :=
  ls.foldl (fun t i => t.revokeSlot i grace) s

/-- Every holder in ACTIVE is revoked, and the grant rule runs once where a lease or an upgrade ended (R131). -/
def State.revokeHolders (s : State) (n : ResNo) (grace : Nat) : State :=
  let ls := s.activeHolders n
  let s1 := s.revokeAll ls grace
  let ended := grace = 0 ∧ ls ≠ []
  let cleared := ls.any (fun i => s.upgradeNames i n) = true
  if ended ∨ cleared then s1.grantRule n else s1

def revokeResourceDecision (f : Frame) (s : State) : Decision :=
  match graceOf? (byteAt f 5) (byteAt f 6) with
  | none => s.refuse .badRequest
  | some g =>
    let n := f.resource
    (s.revokeHolders n (s.graceFor n g),
      { status := .ok, extra := [byteOf (s.activeHolders n).length] })

/-- REVOKE_RESOURCE (R131). -/
def execRevokeResource (s : State) : Host.Outcome State Fault Refusal :=
  .next (s.supRequest Kind.revokeResource revokeResourceDecision)

/-! ### PURGE_CLIENT (R132) -/

/-- Steps 1 to 4, with the four counts: a purge notice is queued or discarded, and so are the owed ones. Chapter 8.7
gives the notices discarded the range 0 to 176; the steps can count up to 192, and the model sends their sum as it
is (its choice, log 34). -/
def State.purge (s : State) (c : Client) : Decision :=
  let q := PortId.client c.port
  let owed := s.owedOf c
  let s1 := s.withdrawAll c.port owed
  let waits := s1.waitsOf c
  let leases := s1.leasesOf c
  let touched := ascending (s1.waitResources waits ++ s1.leaseResources leases)
  let s2 := waits.foldl (fun t j => t.endWaitPurged j) s1
  let s3 := leases.foldl (fun t i => t.endLeasePurged i) s2
  let queued := (s3.port q).queue.length - (s1.port q).queue.length
  let discarded := owed.length + (waits.length + leases.length - queued)
  (s3.grantRules touched,
    { status := .ok
      extra := [byteOf leases.length, byteOf waits.length, byteOf queued, byteOf discarded] })

def purgeClientDecision (f : Frame) (s : State) : Decision :=
  match portOf? (byteAt f 4), tagOf? (byteAt f 5) with
  | some p, some t => s.purge { port := p, tag := t }
  | _, _ => s.refuse .badRequest

/-- PURGE_CLIENT (R132). -/
def execPurgeClient (s : State) : Host.Outcome State Fault Refusal :=
  .next (s.supRequest Kind.purgeClient purgeClientDecision)

/-! ### SET_TIMEBASE (R77) -/

/-- Prescale and run state are set, and the divider restarts at 0. -/
def State.setTimebase (s : State) (prescale : Nat) (rs : RunState) : State :=
  { s with prescale := prescale, run := rs, divider := 0 }

def setTimebaseDecision (f : Frame) (s : State) : Decision :=
  let p := (byteAt f 4).toNat
  match runOf? (byteAt f 5) with
  | none => s.refuse .badRequest
  | some r =>
    if 1 ≤ p ∧ p ≤ 64 then (s.setTimebase p r, Reply.bare .ok) else s.refuse .badRequest

/-- SET_TIMEBASE (R77). -/
def execSetTimebase (s : State) : Host.Outcome State Fault Refusal :=
  .next (s.supRequest Kind.setTimebase setTimebaseDecision)

/-! ### ACTIVATE (R10, R11, R12) -/

/-- A running operation makes the page of entry `n` busy (R10, R147). -/
def State.pageBusy (s : State) (n : ResNo) : Bool :=
  match s.store.running with
  | some (.programEntry k _) => decide (pageOf k = pageOf n)
  | some (.erasePage p) => decide (p.val = pageOf n)
  | some .eraseDirectory => true
  | some (.blankCheck _) | some .scanCrc | some (.writeSettings _) | some (.initHeader _) => false
  | none => false

/-- The captured image of an entry: its classification and its CRC-16 (R10). -/
def State.capture (s : State) (n : ResNo) (revoke : Bool) : Activation :=
  let bs := imageOf s.array n
  { resource := n, image := classify bs, crc := crc16 (bs.take 22), revoke := revoke, state := .pending }

/-- The existing PENDING entry takes the new image and flag and keeps its place (R12). -/
def replacePending (n : ResNo) (a : Activation) (l : List Activation) : List Activation :=
  l.map fun x => if x.pendingFor n then a else x

/-- Step 1 of R12: the entry at the tail, and the mark. -/
def State.recordActivation (s : State) (n : ResNo) (a : Activation) : State :=
  (s.setActivations (s.activations ++ [a])).setRecord n { s.record n with activationPending := true }

/-- The entry is applied at once by steps 1 to 3 of R14, and is freed with no notice (R12, step 4). -/
def State.applyNow (s : State) (n : ResNo) (image : Entry) : State :=
  let s1 := (s.putInForce n image).recheck n image
  (s1.setActivations (dropPending n s1.activations)).serve n

/-- The answer of an ACTIVATE that was applied or recorded. -/
def activateReply (st : Status) (image : Entry) : Reply := { status := st, extra := [image.code] }

/-- Steps 3 and 4 of R12. -/
def State.drain (s : State) (n : ResNo) (a : Activation) : Decision :=
  let s1 :=
    if a.revoke then s.revokeAll (s.activeHolders n) (s.entry n).fieldsD.grace else s
  if (s1.record n).holders.isEmpty then (s1.applyNow n a.image, activateReply .activated a.image)
  else (s1, activateReply .pending a.image)

/-- Checks 4 to 7 of R10. -/
def State.activate (s : State) (n : ResNo) (a : Activation) : Decision :=
  let r := s.record n
  if r.activationPending then
    let s1 := s.setActivations (replacePending n a s.activations)
    if a.revoke then s1.drain n a else (s1, activateReply .pending a.image)
  else if r.holders.isEmpty && r.queue.isEmpty then
    (s.setEntry n a.image, activateReply .activated a.image)
  else if Config.activationPlaces ≤ s.activations.length then s.refuse .listFull
  else ((s.recordActivation n a).endUpgrade n .superseded).drain n a

def activateDecision (f : Frame) (s : State) : Decision :=
  match flagOf? (byteAt f 5) with
  | none => s.refuse .badRequest
  | some revoke =>
    if s.pageBusy f.resource then s.refuse .storeBusy
    else s.activate f.resource (s.capture f.resource revoke)

/-- ACTIVATE (R10). -/
def execActivate (s : State) : Host.Outcome State Fault Refusal :=
  .next (s.supRequest Kind.activate activateDecision)

/-! ### CANCEL_ACTIVATION (R16) -/

/-- The PENDING entry leaves the list, and the mark becomes NO. -/
def State.cancelActivation (s : State) (n : ResNo) : State :=
  (s.setActivations (dropPending n s.activations)).setRecord n
    { s.record n with activationPending := false }

def cancelActivationDecision (f : Frame) (s : State) : Decision :=
  let n := f.resource
  if (s.pendingEntry n).isSome then ((s.cancelActivation n).grantRule n, Reply.bare .ok)
  else s.refuse .notPending

/-- CANCEL_ACTIVATION (R16). -/
def execCancelActivation (s : State) : Host.Outcome State Fault Refusal :=
  .next (s.supRequest Kind.cancelActivation cancelActivationDecision)

end Sys2Proof.Machine
end

