-- ==== Sys2Proof/Machine/StoreRequests.lean ====
section
/-! DEFINITION. The store requests: the seven rows of STORE_STAGE, STORE_LAUNCH, STORE_DISCARD, STORE_CLEAR and
STORE_READ (R137 to R140, R147). -/

namespace Sys2Proof.Machine

/-! ### STORE_STAGE (R137) -/

/-- Check 3 of R137: INIT_HEADER in READY. -/
def State.initForbidden (s : State) : Bool := decide (s.part = .ready)

/-- Check 3 of R137: WRITE_SETTINGS in SPENT, in FAULTED, and in READY at epoch 65535. -/
def State.settingsForbidden (s : State) : Bool :=
  decide (s.part = .spent) || decide (s.part = .faulted)
    || (decide (s.part = .ready) && decide (s.epoch = Config.last16))

/-- A command judged by checks 3 to 5: the operation it names, or its refusal. -/
abbrev Judged := Except Status StoreOp

/-- Checks 2 and 6: the stage must be EMPTY, and takes the command (R137). -/
def State.stageCommand (s : State) (judged : Judged) : Decision :=
  match s.store.stage with
  | .held _ | .launched _ => s.refuse .stageFull
  | .empty =>
    match judged with
    | .error st => s.refuse st
    | .ok op => (s.setStore { s.store with stage := .held op }, Reply.bare .ok)

/-- PROGRAM_ENTRY: the 22 field bytes are judged for BAD_IMAGE. -/
def judgeProgramEntry (f : Frame) : Judged :=
  let image := (f.drop 6).take 22
  match fieldsOf? image with
  | none => .error .badImage
  | some _ => .ok (.programEntry (resOf (byteAt f 5)) image)

/-- ERASE_PAGE: a page above 15, FFh included, is BAD_OPERAND (R158). -/
def judgeErasePage (f : Frame) : Judged :=
  match pageOf? (byteAt f 5) with
  | none => .error .badOperand
  | some p => .ok (.erasePage p)

/-- BLANK_CHECK: a page, or FFh for ALL. -/
def judgeBlankCheck (f : Frame) : Judged :=
  if byteAt f 5 = 0xFF#8 then .ok (.blankCheck none)
  else match pageOf? (byteAt f 5) with
    | none => .error .badOperand
    | some p => .ok (.blankCheck (some p))

/-- WRITE_SETTINGS: the prescale and the four policies. -/
def State.judgeWriteSettings (s : State) (f : Frame) : Judged :=
  if s.settingsForbidden then .error .notPermitted
  else match settingsOf? (byteAt f 5) (byteAt f 6) (byteAt f 7) (byteAt f 8) (byteAt f 9) with
    | none => .error .badOperand
    | some t => .ok (.writeSettings t)

/-- INIT_HEADER: a base of 65535 is BAD_OPERAND. -/
def State.judgeInitHeader (s : State) (f : Frame) : Judged :=
  if s.initForbidden then .error .notPermitted
  else if f.word 5 = Config.last16 then .error .badOperand
  else .ok (.initHeader (f.word 5))

/-- The row's operation code stands in the frame (Table 11-2). -/
def namesOp (code : Byte) (f : Frame) : Bool := decide (4 < f.length) && decide (byteAt f 4 = code)

/-- The frame's operation code is one of the seven. -/
def knownOp (f : Frame) : Bool :=
  decide (4 < f.length) && decide (1 ≤ (byteAt f 4).toNat) && decide ((byteAt f 4).toNat ≤ 7)

/-- A STORE_STAGE row: it acts on a frame that names its operation, or that names none of the seven, which is
answered BAD_REQUEST (R137, check 1; log 3). -/
def State.stageRequest (s : State) (code : Byte) (len : Nat) (judge : Frame → State → Judged) : State :=
  match s.engine with
  | none => s
  | some r =>
    if namesOp code r.frame then
      s.supRequest (Kind.storeStage len) fun f t => t.stageCommand (judge f t)
    else if knownOp r.frame then s
    else s.supRequest (Kind.storeStage len) fun _ t => t.refuse .badRequest

/-- STORE_STAGE of PROGRAM_ENTRY. -/
def execStoreStageProgramEntry (s : State) : Host.Outcome State Fault Refusal :=
  .next (s.stageRequest 0x01#8 28 fun f _ => judgeProgramEntry f)

/-- STORE_STAGE of ERASE_PAGE. -/
def execStoreStageErasePage (s : State) : Host.Outcome State Fault Refusal :=
  .next (s.stageRequest 0x02#8 6 fun f _ => judgeErasePage f)

/-- STORE_STAGE of ERASE_DIRECTORY. -/
def execStoreStageEraseDirectory (s : State) : Host.Outcome State Fault Refusal :=
  .next (s.stageRequest 0x03#8 5 fun _ _ => .ok .eraseDirectory)

/-- STORE_STAGE of BLANK_CHECK. -/
def execStoreStageBlankCheck (s : State) : Host.Outcome State Fault Refusal :=
  .next (s.stageRequest 0x04#8 6 fun f _ => judgeBlankCheck f)

/-- STORE_STAGE of SCAN_CRC. -/
def execStoreStageScanCrc (s : State) : Host.Outcome State Fault Refusal :=
  .next (s.stageRequest 0x05#8 5 fun _ _ => .ok .scanCrc)

/-- STORE_STAGE of WRITE_SETTINGS. -/
def execStoreStageWriteSettings (s : State) : Host.Outcome State Fault Refusal :=
  .next (s.stageRequest 0x06#8 10 fun f t => t.judgeWriteSettings f)

/-- STORE_STAGE of INIT_HEADER. -/
def execStoreStageInitHeader (s : State) : Host.Outcome State Fault Refusal :=
  .next (s.stageRequest 0x07#8 7 fun f t => t.judgeInitHeader f)

/-! ### STORE_LAUNCH, STORE_DISCARD, STORE_CLEAR -/

/-- STARTED and BEHIND (Table 11-3). -/
def startedByte : Byte := 0x01#8
def behindByte : Byte := 0x02#8

/-- Checks 2 to 6 of R138. -/
def storeLaunchDecision (_f : Frame) (s : State) : Decision :=
  if s.store.fault.isSome then s.refuse .storeFaulted
  else match s.store.stage with
    | .empty => s.refuse .nothingStaged
    | .launched _ => s.refuse .stageLaunched
    | .held op =>
      if s.store.ready then
        (s.setStore { s.store with running := some op, stage := .empty },
          { status := .ok, extra := [startedByte] })
      else
        (s.setStore { s.store with stage := .launched op },
          { status := .ok, extra := [behindByte] })

/-- STORE_LAUNCH (R138). -/
def execStoreLaunch (s : State) : Host.Outcome State Fault Refusal :=
  .next (s.supRequest Kind.storeLaunch storeLaunchDecision)

def storeDiscardDecision (_f : Frame) (s : State) : Decision :=
  match s.store.stage with
  | .empty => s.refuse .nothingStaged
  | .launched _ => s.refuse .stageLaunched
  | .held _ => (s.setStore { s.store with stage := .empty }, Reply.bare .ok)

/-- STORE_DISCARD (R139). -/
def execStoreDiscard (s : State) : Host.Outcome State Fault Refusal :=
  .next (s.supRequest Kind.storeDiscard storeDiscardDecision)

def storeClearDecision (_f : Frame) (s : State) : Decision :=
  (s.setStore { s.store with fault := none }, Reply.bare .ok)

/-- STORE_CLEAR (R140). -/
def execStoreClear (s : State) : Host.Outcome State Fault Refusal :=
  .next (s.supRequest Kind.storeClear storeClearDecision)

/-! ### STORE_READ (R147) -/

/-- The check outcome of a stored image. -/
def imageCheck (bs : List Byte) : Byte :=
  if blank bs then 0x01#8
  else if !imageCrcOk bs then 0x02#8
  else if (fieldsOf? (bs.take 22)).isNone then 0x03#8
  else 0x00#8

def storeReadDecision (f : Frame) (s : State) : Decision :=
  if s.pageBusy f.resource then s.refuse .storeBusy
  else
    let bs := imageOf s.array f.resource
    (s, { status := .ok, extra := bs ++ [imageCheck bs] })

/-- STORE_READ (R147). -/
def execStoreRead (s : State) : Host.Outcome State Fault Refusal :=
  .next (s.supRequest Kind.storeRead storeReadDecision)

end Sys2Proof.Machine
end

