-- ==== Sys2Proof/Machine/SupervisorReads.lean ====
section
/-! DEFINITION. The supervisor's reads: STATUS, READ_LEASE, READ_RESOURCE, READ_QUEUE and READ_WAIT (R124 to R129). -/

namespace Sys2Proof.Machine

/-! ### STATUS (R124) -/

/-- The slots, or wait entries, in the state with this code. -/
def State.slotsIn (s : State) (code : Byte) : Nat := allSlots.countP fun i => (s.slot i).body.code == code
def State.waitsIn (s : State) (code : Byte) : Nat := allWaits.countP fun j => (s.wait j).code == code

/-- The operation code of an operation, 00h for none (chapter 11.3). -/
def opByte : Option StoreOp → Byte
  | none => 0x00#8
  | some op => op.code

/-- The command in the stage. -/
def Stage.op? : Stage → Option StoreOp
  | .empty => none
  | .held op | .launched op => some op

/-- Stage state codes. -/
def Stage.code : Stage → Byte
  | .empty => 0x00#8
  | .held _ => 0x01#8
  | .launched _ => 0x02#8

/-- Activation list entry state codes. -/
def ActState.code : ActState → Byte
  | .pending => 0x01#8
  | .applied _ => 0x02#8

/-- The captured CRC-16, present when the captured image is DEFINED (R124). -/
def Activation.crcBytes (a : Activation) : List Byte :=
  match a.image with
  | .defined _ => be16 a.crc.toNat
  | .undefined | .damaged => be16 0

/-- One item of the activation list. -/
def Activation.item (a : Activation) : List Byte :=
  [byteOf a.resource.val, a.state.code, flagByte a.revoke, a.image.code] ++ a.crcBytes

/-- The summary of the part. -/
def State.summary (s : State) : List Byte :=
  s.part.code :: be16 s.epoch
    ++ [byteOf (s.slotsIn 0x00#8), byteOf (s.slotsIn 0x04#8), byteOf (s.waitsIn 0x00#8),
        byteOf (s.waitsIn 0x04#8), byteOf s.prescale, s.run.code, opByte s.store.running,
        s.store.stage.code, opByte s.store.stage.op?, outcomeCode s.store.fault,
        flagByte (!s.store.held.isEmpty), byteOf s.activations.length]
    ++ s.activations.flatMap Activation.item ++ allClientPorts.map fun p => (s.side p).policy.code

def statusDecision (_f : Frame) (s : State) : Decision := (s, { status := .ok, extra := s.summary })

/-- STATUS (R124). -/
def execStatus (s : State) : Host.Outcome State Fault Refusal :=
  .next (s.supRequest Kind.status statusDecision)

/-! ### READ_LEASE (R125, Table 2-3) -/

/-- The owed kind and detail: the request id of a GRANTED, the cause of an UPGRADE_ENDED (R125). -/
def owedBytes : Option Owed → List Byte
  | none => [0x00#8, 0x00#8]
  | some (.granted rid) => [0xC1#8, rid]
  | some (.upgradeEnded c) => [0xC3#8, c.code]
  | some k => [k.code, 0x00#8]

/-- The fields of a lease from fence to end cause. -/
def leaseFields (l : Lease) (grace : Option Nat) (deadline : Option Limit) (cause : Byte) : List Byte :=
  l.fence.bytes ++ be16 l.granted ++ be16 l.remaining
    ++ [byteOf l.renewals, flagByte l.warned, flagByte grace.isSome, byteOf (grace.getD 0)]
    ++ limitBytes deadline ++ owedBytes l.owed ++ [cause]

/-- The upgrade deadline, where the state has one. -/
def SlotBody.deadline? : SlotBody → Option Limit
  | .active _ d => d
  | .free | .reserved _ | .revoking _ _ | .ended _ _ _ => none

/-- The fields after the generation, in whatever state (R125; log 28). -/
def SlotBody.fieldBytes (b : SlotBody) : List Byte :=
  match b with
  | .free => [0x00#8, 0xFF#8, 0x00#8] ++ padTo 19 []
  | .reserved r =>
    [byteOf r.resource.val, r.client.number, r.mode.code] ++ be16 r.term ++ padTo 17 []
  | .active l d =>
    [byteOf l.resource.val, l.client.number, l.mode.code] ++ be16 0 ++ leaseFields l none d 0x00#8
  | .revoking l g =>
    [byteOf l.resource.val, l.client.number, l.mode.code] ++ be16 0
      ++ leaseFields l (some g) none 0x00#8
  | .ended l g c =>
    [byteOf l.resource.val, l.client.number, l.mode.code] ++ be16 0 ++ leaseFields l g none c.code

/-- The record of a slot. -/
def State.slotReport (s : State) (i : SlotNo) : List Byte :=
  [byteOf i.val, (s.slot i).body.code, (s.slot i).generation] ++ (s.slot i).body.fieldBytes

def readLeaseDecision (f : Frame) (s : State) : Decision :=
  match slotOf? (byteAt f 4) with
  | none => s.refuse .badRequest
  | some i => (s, { status := .ok, extra := s.slotReport i })

/-- READ_LEASE (R125). -/
def execReadLease (s : State) : Host.Outcome State Fault Refusal :=
  .next (s.supRequest Kind.readLease readLeaseDecision)

/-! ### READ_RESOURCE (R126) -/

/-- The slot number and mode of a holder. -/
def State.holderSlotBytes (s : State) (i : SlotNo) : List Byte :=
  [byteOf i.val, heldCode ((s.slot i).body.live?.map Lease.mode)]

/-- The working entry and the record of a resource. -/
def State.recordReport (s : State) (n : ResNo) : List Byte :=
  let r := s.record n
  (s.entry n).report ++ [heldCode (s.modeHeld n), byteOf r.holders.length]
    ++ r.holders.flatMap s.holderSlotBytes
    ++ [byteOf r.queue.length, waitByte r.queue.head?, slotByte r.upgradePending] ++ be16 r.lastSeq
    ++ [flagByte r.fenceSpent, flagByte r.activationPending]

def readResourceDecision (f : Frame) (s : State) : Decision :=
  (s, { status := .ok, extra := s.recordReport f.resource })

/-- READ_RESOURCE (R126). -/
def execReadResource (s : State) : Host.Outcome State Fault Refusal :=
  .next (s.supRequest Kind.readResource readResourceDecision)

/-! ### READ_QUEUE (R127) -/

/-- Items a READ_QUEUE gives at most (R127). -/
def queueItems : Nat := 8

/-- One item of a queue. -/
def State.queueItem (s : State) (j : WaitNo) : List Byte :=
  match s.wait j with
  | .queued w r i =>
    [byteOf j.val, w.client.number, w.mode.code] ++ be16 r.word ++ [byteOf i.val]
  | .free | .ended _ _ => []

def readQueueDecision (f : Frame) (s : State) : Decision :=
  let start := (byteAt f 5).toNat
  if 1 ≤ start ∧ start ≤ 48 then
    let q := (s.record f.resource).queue
    let items := (q.drop (start - 1)).take queueItems
    (s, { status := .ok
          extra := [byteOf q.length, byteOf start, byteOf items.length] ++ items.flatMap s.queueItem })
  else s.refuse .badRequest

/-- READ_QUEUE (R127). -/
def execReadQueue (s : State) : Host.Outcome State Fault Refusal :=
  .next (s.supRequest Kind.readQueue readQueueDecision)

/-! ### READ_WAIT (R128, Table 3-1) -/

/-- The entry's number, state and fields, and its position in its queue (log 28). -/
def State.waitReport (s : State) (j : WaitNo) : List Byte :=
  [byteOf j.val, (s.wait j).code] ++
    match s.wait j with
    | .free => [0xFF#8, 0x00#8, 0x00#8] ++ be16 0 ++ [0xFF#8, 0x00#8, 0x00#8, 0x00#8]
    | .queued w r i =>
      [w.client.number, byteOf w.resource.val, w.mode.code] ++ be16 r.word
        ++ [byteOf i.val, w.rid, 0x00#8, byteOf (positionIn j (s.record w.resource).queue)]
    | .ended w c =>
      [w.client.number, byteOf w.resource.val, w.mode.code] ++ be16 0
        ++ [0xFF#8, w.rid, c.code, 0x00#8]

def readWaitDecision (f : Frame) (s : State) : Decision :=
  match waitOf? (byteAt f 4) with
  | none => s.refuse .badRequest
  | some j => (s, { status := .ok, extra := s.waitReport j })

/-- READ_WAIT (R128). -/
def execReadWait (s : State) : Host.Outcome State Fault Refusal :=
  .next (s.supRequest Kind.readWait readWaitDecision)

end Sys2Proof.Machine
end

