-- ==== Sys2Proof/Machine/Time.lean ====
section
/-! DEFINITION. The timebase's ticks and what they end: terms, grace, waits and pending upgrades (R75, R79 to R81,
R88, R49, R50, R67, R69). -/

namespace Sys2Proof.Machine

/-! ### The timebase (R75; log 10) -/

/-- REFCLK periods of one tick. -/
def State.tickLength (s : State) : Nat := Config.tickPeriods * s.prescale

/-- Ticks come and are taken: supply, RESET# high, no start-up in progress, RUN (R75, R76, R78). -/
def State.counting (s : State) : Bool :=
  s.serving && decide (s.run = .run)

/-- `periods` REFCLK periods pass: the divider counts them, and each completed tick is due at the lease table,
the wait pool and the pending upgrades (R75). -/
def State.count (s : State) (periods : Nat) : State :=
  let total := s.divider + periods
  let ticks := total / s.tickLength
  { s with
    divider := total % s.tickLength
    leaseTicks := s.leaseTicks + ticks
    waitTicks := s.waitTicks + ticks
    upgradeTicks := s.upgradeTicks + ticks }

/-- TICK (R75). -/
def execTick (periods : Nat) (s : State) : Host.Outcome State Fault Refusal :=
  .next (if s.counting then s.count periods else s)

/-! ### The lease table's tick (R79) -/

/-- Step 1: an ACTIVE or REVOKING slot loses 1 of its term, a REVOKING one 1 of its grace. -/
def SlotBody.ticked : SlotBody → SlotBody
  | .active l d => .active { l with remaining := l.remaining - 1 } d
  | .revoking l g => .revoking { l with remaining := l.remaining - 1 } (g - 1)
  | .free => .free
  | .reserved r => .reserved r
  | .ended l g c => .ended l g c

/-- The subtraction at every slot. -/
def State.tickSlots (s : State) : State :=
  { s with slots := vmap (fun v => { v with body := v.body.ticked }) s.slots }

/-- How step 2 ends a slot, if it does (R79, R88, R81). -/
def SlotBody.tickEnd : SlotBody → Option EndCause
  | .revoking l g =>
    if g = 0 then some .revoked else if l.remaining = 0 then some .expired else none
  | .active l _ => if l.remaining = 0 then some .expired else none
  | .free | .reserved _ | .ended _ _ _ => none

/-- An ACTIVE lease that does not end is due for its warning (R80). -/
def State.warnDue (s : State) (l : Lease) : Bool :=
  let lead := (s.entry l.resource).fieldsD.warnLead
  decide (0 < lead) && decide (l.remaining ≤ lead) && !l.warned

/-- The warning: warned becomes YES, and EXPIRY_WARNING is offered (R80). -/
def State.warn (s : State) (i : SlotNo) : State :=
  match (s.slot i).body with
  | .active l d =>
    if s.warnDue l then (s.setBody i (.active { l with warned := true } d)).offer i .expiryWarning else s
  | .free | .reserved _ | .revoking _ _ | .ended _ _ _ => s

/-- Step 2 at one slot. -/
def State.tickSlot (s : State) (i : SlotNo) : State :=
  match (s.slot i).body.tickEnd with
  | some cause => s.endLease cause i
  | none => s.warn i

/-- The resources of the leases step 2 ends, in slot order, one for each lease. -/
def State.tickEnded (s : State) : List ResNo :=
  allSlots.filterMap fun i =>
    if (s.slot i).body.tickEnd.isSome then (s.slot i).body.live?.map Lease.resource else none

/-- Steps 1 to 3 of R79. -/
def State.leaseTick (s : State) : State :=
  let s1 := s.tickSlots
  (allSlots.foldl (fun t i => t.tickSlot i) s1).grantRules s1.tickEnded

/-- LEASE_TABLE_TICK (R79): while RUN, the lease table takes a tick that is due to it; none reaches it while FROZEN
(R75, R78; log 10). -/
def execLeaseTableTick (s : State) : Host.Outcome State Fault Refusal :=
  .next
    (if s.counting && decide (0 < s.leaseTicks) then
      State.leaseTick { s with leaseTicks := s.leaseTicks - 1 }
     else s)

/-- A lease whose remaining term has reached 0 ends EXPIRED, while RUN (R81, R78; log 12). -/
def execLeaseExpiry (i : SlotNo) (s : State) : Host.Outcome State Fault Refusal :=
  match (s.slot i).body.live? with
  | none => .next s
  | some l =>
    if s.counting && decide ((s.slot i).body.tickEnd = some .expired) then
      .next ((s.endLease .expired i).grantRule l.resource)
    else .next s

/-- A REVOKING lease whose grace remaining has reached 0 ends REVOKED, while RUN (R88, R78; log 12). -/
def execGraceEnd (i : SlotNo) (s : State) : Host.Outcome State Fault Refusal :=
  match (s.slot i).body.live? with
  | none => .next s
  | some l =>
    if s.counting && decide ((s.slot i).body.tickEnd = some .revoked) then
      .next ((s.endLease .revoked i).grantRule l.resource)
    else .next s

/-! ### The wait pool's tick (R49) -/

/-- A finite limit loses 1. -/
def Limit.ticked : Limit → Limit
  | .ticks n => .ticks (n - 1)
  | .indefinite => .indefinite

/-- A limit that has reached 0. -/
def Limit.isOver : Limit → Bool
  | .ticks n => decide (n = 0)
  | .indefinite => false

/-- The subtraction at one entry. -/
def WaitEntry.ticked : WaitEntry → WaitEntry
  | .queued w r i => .queued w r.ticked i
  | .free => .free
  | .ended w c => .ended w c

/-- The entry is QUEUED and its wait remaining has reached 0. -/
def WaitEntry.timedOut : WaitEntry → Bool
  | .queued _ r _ => r.isOver
  | .free | .ended _ _ => false

/-- The subtraction at every entry. -/
def State.tickWaits (s : State) : State := { s with waits := vmap WaitEntry.ticked s.waits }

/-- The entries that have reached 0: first those the command names, in its order, then the rest (log 11). -/
def State.timeouts (s : State) (order : List WaitNo) : List WaitNo :=
  let named := order.filter fun j => (s.wait j).timedOut
  named ++ allWaits.filter fun j => (s.wait j).timedOut && !named.contains j

/-- The resources of the waits that end, one for each wait, in the order of the ends. -/
def State.timeoutResources (s : State) (js : List WaitNo) : List ResNo :=
  js.filterMap fun j => (s.wait j).queued?.map Wait.resource

/-- The ends: at each turn the first timed-out entry of the named entry's resource ends TIMEOUT, and where
the named one has ended before in its resource's order, that resource's next (R49, R51). -/
def State.endTimeouts (s : State) (ns : List ResNo) : State :=
  ns.foldl
    (fun t n => match (t.record n).queue.find? fun k => (t.wait k).timedOut with
      | some k => t.endWait .timeout k
      | none => t) s

/-- The wait pool's event (R49). The rule gives no order to the grant rules of different resources: the model runs
them in the order of the ends (its choice, log 11). -/
def State.waitTick (s : State) (order : List WaitNo) : State :=
  let s1 := s.tickWaits
  let ns := s1.timeoutResources (s1.timeouts order)
  (s1.endTimeouts ns).grantRules ns

/-- WAIT_POOL_TICK (R49): while RUN, the wait pool takes a tick that is due to it (log 10). -/
def execWaitPoolTick (order : List WaitNo) (s : State) : Host.Outcome State Fault Refusal :=
  .next
    (if s.counting && decide (0 < s.waitTicks) then
      State.waitTick { s with waitTicks := s.waitTicks - 1 } order
     else s)

/-- A queued wait whose wait remaining has reached 0 ends TIMEOUT while RUN, and the grant rule runs (R50, R51, R78;
log 12). -/
def execWaitTimeout (j : WaitNo) (s : State) : Host.Outcome State Fault Refusal :=
  match (s.wait j).queued? with
  | none => .next s
  | some w =>
    if s.counting && (s.wait j).timedOut then .next ((s.endWait .timeout j).grantRule w.resource)
    else .next s

/-! ### The pending upgrades' tick (R67) -/

/-- The deadline of a slot loses 1. -/
def SlotBody.deadlineTicked : SlotBody → SlotBody
  | .active l d => .active l (d.map Limit.ticked)
  | .free => .free
  | .reserved r => .reserved r
  | .revoking l g => .revoking l g
  | .ended l g c => .ended l g c

/-- The deadline of a slot has reached 0. -/
def SlotBody.deadlineOver : SlotBody → Bool
  | .active _ (some d) => d.isOver
  | .active _ none => false
  | .free | .reserved _ | .revoking _ _ | .ended _ _ _ => false

/-- The subtraction at every pending upgrade. -/
def State.tickDeadlines (s : State) : State :=
  { s with slots := vmap (fun v => { v with body := v.body.deadlineTicked }) s.slots }

/-- The resource's pending upgrade has run out of time. -/
def State.upgradeOver (s : State) (n : ResNo) : Bool :=
  match (s.record n).upgradePending with
  | some i => (s.slot i).body.deadlineOver
  | none => false

/-- The resources whose pending upgrade has reached 0: those the command names first, then the rest (log 11). -/
def State.upgradeTimeouts (s : State) (order : List ResNo) : List ResNo :=
  let named := order.filter s.upgradeOver
  named ++ allResources.filter fun n => s.upgradeOver n && !named.contains n

/-- The pending upgrades' event (R67). The rule gives no order to the grant rules of different resources: the model
runs them in the order of the ends (its choice, log 11). -/
def State.upgradeTick (s : State) (order : List ResNo) : State :=
  let s1 := s.tickDeadlines
  let ns := s1.upgradeTimeouts order
  (ns.foldl (fun t n => t.endUpgrade n .timeout) s1).grantRules ns

/-- PENDING_UPGRADES_TICK (R67): while RUN, the pending upgrades take a tick that is due to them (log 10). -/
def execPendingUpgradesTick (order : List ResNo) (s : State) : Host.Outcome State Fault Refusal :=
  .next
    (if s.counting && decide (0 < s.upgradeTicks) then
      State.upgradeTick { s with upgradeTicks := s.upgradeTicks - 1 } order
     else s)

/-- A pending upgrade whose deadline has reached 0 ends TIMEOUT while RUN, and the grant rule runs (R69, R78;
log 12). -/
def execUpgradeTimeout (n : ResNo) (s : State) : Host.Outcome State Fault Refusal :=
  if s.counting && s.upgradeOver n then .next ((s.endUpgrade n .timeout).grantRule n) else .next s

end Sys2Proof.Machine
end

