-- ==== Sys2Proof/Machine/Transactions.lean ====
section
/-! DEFINITION. The SPI transactions of the five ports: the status word, WRITE, READ, STATUS and unknown
kinds (R101 to R105; log 9). -/

namespace Sys2Proof.Machine

/-- The falling edge: the status word is captured (R101). -/
def PortUnit.begin (part : PartState) (k : TransKind) (u : PortUnit) : PortUnit :=
  { u with
    transfer := some
      { kind := k, word1 := statusByte1 part u, word2 := statusByte2 u, reported := false,
        fixed := false, sending := none, headStill := true } }

/-- The end of the first status byte, and of the kind byte: the flags the byte carries set are cleared, whatever has
set them again meanwhile (R102), and an unknown kind then sets FRAME_ERROR (R101; the order of the two, log 9). -/
def PortUnit.report (u : PortUnit) : PortUnit :=
  match u.transfer with
  | some t =>
    if t.reported then u
    else
      let v := u.clearCarried t.word1
      { v with
        frameError := v.frameError || decide (t.kind = .unknown), transfer := some { t with reported := true } }
  | none => u

/-- The end of the second status byte: a READ that has fixed no message fixes the head message of that moment, or
none (R104). -/
def PortUnit.fix (u : PortUnit) : PortUnit :=
  { u with
    transfer := u.transfer.map fun t =>
      if t.kind = .read ∧ t.fixed = false then
        { t with fixed := true, sending := u.queue.head?, headStill := true }
      else t }

/-- The transaction of a port is over, and what SDOx carried in it is recorded: the status word, then
`rest`, then low bytes, `n` complete bytes in all (Table 7-2). -/
def PortUnit.finish (t : Transfer) (rest : List Byte) (n : Nat) (u : PortUnit) : PortUnit :=
  { u with transfer := none, sdo := padTo n (t.word1 :: t.word2 :: rest) }

/-- The header and body of a message as they are sent (chapter 11.3). -/
def Message.bytes (m : Message) : List Byte := m.code :: m.tag :: m.rid :: m.status :: m.body

/-- What a READ sends after the status word: length, message and CRC-8, or the length 0 and its CRC-8 (R104). -/
def readPayload (m : Option Message) : List Byte :=
  let bs := match m with
    | some x => byteOf x.bytes.length :: x.bytes
    | none => [0x00#8]
  bs ++ [crc8 bs]

/-- The last bit of the CRC-8 has been shifted out (R104). -/
def readComplete (m : Message) (bits : Nat) : Bool :=
  decide (8 * (2 + (readPayload (some m)).length) ≤ bits)

/-- What a WRITE's rising edge decides (R103). -/
inductive FrameFate where
  | discarded | frameError | overrun | accepted (f : Frame)
  deriving DecidableEq, Repr

/-- Checks 2 of R103 on the bytes after the kind byte: L, exactly L message bytes, and their CRC-8. -/
def frameOf? (sent : List Byte) : Option Frame :=
  match sent with
  | [] => none
  | l :: rest =>
    if 4 ≤ l.toNat ∧ l.toNat ≤ 48 ∧ rest.length = l.toNat + 1
        ∧ rest.getLast? = some (crc8 (l :: rest.dropLast)) then
      some rest.dropLast
    else none

/-- The four checks of R103, in order. -/
def PortUnit.fate (part : PartState) (sent : List Byte) (u : PortUnit) : FrameFate :=
  if part = .starting then .discarded
  else match frameOf? sent with
    | none => .frameError
    | some f => if Config.fifoDepth ≤ u.fifo.length then .overrun else .accepted f

/-- The rising edge of a WRITE (R103). -/
def PortUnit.take (u : PortUnit) : FrameFate → PortUnit
  | .discarded => u
  | .frameError => { u with frameError := true }
  | .overrun => { u with overrun := true }
  | .accepted f => { u with fifo := u.fifo ++ [f] }

/-- Notices that wait for a port are delivered: owed ones, or port S's held ones (R114, R123). -/
def State.deliverTo (s : State) : PortId → State
  | .client p => s.deliverAllOwed p
  | .sup => s.deliverAllHeld

/-- A transaction begins on a port that has none in progress (R101). -/
def State.beginTransfer (s : State) (p : PortId) (k : TransKind) : State :=
  if s.alive && (s.port p).transfer.isNone then s.setPort p ((s.port p).begin s.part k) else s

/-- A transaction of the kind is in progress on the port. -/
def State.transfers (s : State) (p : PortId) (k : TransKind) : Bool :=
  s.alive && decide ((s.port p).transfer.map Transfer.kind = some k)

/-- The first status byte of the transaction in progress ends (R102). -/
def State.reportTransfer (s : State) (p : PortId) (k : TransKind) : State :=
  if s.transfers p k then s.setPort p (s.port p).report else s

/-- The second status byte of the transaction in progress ends, and the first one has ended before it (R104). -/
def State.fixTransfer (s : State) (p : PortId) (k : TransKind) : State :=
  if s.transfers p k then s.setPort p (s.port p).report.fix else s

/-- SCK periods of the first status byte, and of the kind byte (R101). -/
def kindBits : Nat := 8

/-- SCK periods of the two status bytes (R101). -/
def statusBits : Nat := 16

/-- The first status byte of the transaction in progress has ended, in a command before this one or within `bits` SCK
periods (R102). -/
def Transfer.pastKind (t : Transfer) (bits : Nat) : Bool := t.reported || decide (kindBits ≤ bits)

/-- The rising edge after `bits` SCK periods. A status byte that has ended by then, and of which no command has said
when, ended just now (log 9), and then comes what `ending` does; before the end of the kind byte the transaction has
no effect (R101, R102). -/
def State.endTransfer (s : State) (p : PortId) (k : TransKind) (bits : Nat) (ending : State → State) : State :=
  if s.transfers p k then
    if (s.port p).transfer.any fun t => t.pastKind bits then
      ending (if statusBits ≤ bits then s.fixTransfer p k else s.reportTransfer p k)
    else s.setPort p { s.port p with transfer := none }
  else s

/-- The rising edge of a WRITE: the frame is decided (R103). -/
def State.finishWrite (s : State) (p : PortId) (sent : List Byte) : State :=
  match (s.port p).transfer with
  | some t =>
    let u := s.port p
    s.setPort p ((u.take (u.fate s.part sent)).finish t [] (1 + sent.length))
  | none => s

/-- The rising edge of a READ: a message read completely that is still the head leaves the queue, and the notices
that waited for its room follow (R104). -/
def State.finishRead (s : State) (p : PortId) (bits : Nat) : State :=
  match (s.port p).transfer with
  | some t =>
    let s1 := s.setPort p ((s.port p).finish t (readPayload t.sending) (bits / 8))
    match t.sending with
    | some m =>
      if t.headStill && readComplete m bits then
        (s1.setPort p { s1.port p with queue := (s1.port p).queue.tail }).deliverTo p
      else s1
    | none => s1
  | none => s

/-- The rising edge of a transaction that has no further effect: STATUS, and an unknown kind. -/
def State.finishPlain (s : State) (p : PortId) (bits : Nat) : State :=
  match (s.port p).transfer with
  | some t => s.setPort p ((s.port p).finish t [] (bits / 8))
  | none => s

/-- A transaction of the kind at the moments a command covers; `whole` has nothing in between, on a port that has none
in progress. -/
def State.transact (s : State) (p : PortId) (k : TransKind) (e : Edge) (bits : Nat) (ending : State → State) :
    State :=
  match e with
  | .begins => s.beginTransfer p k
  | .reports => s.reportTransfer p k
  | .fixes => s.fixTransfer p k
  | .ends => s.endTransfer p k bits ending
  | .whole =>
    if (s.port p).transfer.isNone then (s.beginTransfer p k).endTransfer p k bits ending else s

/-- WRITE (R103): the kind byte and then the bytes sent. -/
def execWriteTransaction (p : PortId) (e : Edge) (sent : List Byte) (s : State) :
    Host.Outcome State Fault Refusal :=
  .next (s.transact p .write e (kindBits + 8 * sent.length) fun t => t.finishWrite p sent)

/-- READ (R104). -/
def execReadTransaction (p : PortId) (e : Edge) (bits : Nat) (s : State) :
    Host.Outcome State Fault Refusal :=
  .next (s.transact p .read e bits fun t => t.finishRead p bits)

/-- STATUS (R105). -/
def execStatusTransaction (p : PortId) (e : Edge) (bits : Nat) (s : State) :
    Host.Outcome State Fault Refusal :=
  .next (s.transact p .status e bits fun t => t.finishPlain p bits)

/-- A transaction whose kind byte is unknown: FRAME_ERROR and no further effect (R101; log 25). -/
def execUnknownKindTransaction (p : PortId) (e : Edge) (_kind : Byte) (bits : Nat) (s : State) :
    Host.Outcome State Fault Refusal :=
  .next (s.transact p .unknown e bits fun t => t.finishPlain p bits)

end Sys2Proof.Machine
end

