-- ==== Sys2Proof/Machine/Dispatch.lean ====
section
/-! DEFINITION. The effect of each command: one arm per constructor, one meaning per arm. -/

namespace Sys2Proof.Machine

def exec (i : Instr) (s : State) : Host.Outcome State Fault Refusal :=
  match i with
  | .powerOn => Sys2Proof.Machine.execPowerOn s
  | .resetAssert done => Sys2Proof.Machine.execResetAssert done s
  | .resetRelease => Sys2Proof.Machine.execResetRelease s
  | .powerLoss done => Sys2Proof.Machine.execPowerLoss done s
  | .startUpComplete run => Sys2Proof.Machine.execStartUpComplete run s
  | .writeTransaction p e sent => Sys2Proof.Machine.execWriteTransaction p e sent s
  | .readTransaction p e bits => Sys2Proof.Machine.execReadTransaction p e bits s
  | .statusTransaction p e bits => Sys2Proof.Machine.execStatusTransaction p e bits s
  | .unknownKindTransaction p e kind bits => Sys2Proof.Machine.execUnknownKindTransaction p e kind bits s
  | .unknownRequestKind => Sys2Proof.Machine.execUnknownRequestKind s
  | .acquire => Sys2Proof.Machine.execAcquire s
  | .cancelWait => Sys2Proof.Machine.execCancelWait s
  | .release => Sys2Proof.Machine.execRelease s
  | .renew => Sys2Proof.Machine.execRenew s
  | .upgrade => Sys2Proof.Machine.execUpgrade s
  | .cancelUpgrade => Sys2Proof.Machine.execCancelUpgrade s
  | .downgrade => Sys2Proof.Machine.execDowngrade s
  | .verify => Sys2Proof.Machine.execVerify s
  | .queryResource => Sys2Proof.Machine.execQueryResource s
  | .queryLease => Sys2Proof.Machine.execQueryLease s
  | .listMine => Sys2Proof.Machine.execListMine s
  | .detach => Sys2Proof.Machine.execDetach s
  | .resetPort => Sys2Proof.Machine.execResetPort s
  | .status => Sys2Proof.Machine.execStatus s
  | .readLease => Sys2Proof.Machine.execReadLease s
  | .readResource => Sys2Proof.Machine.execReadResource s
  | .readQueue => Sys2Proof.Machine.execReadQueue s
  | .readWait => Sys2Proof.Machine.execReadWait s
  | .revoke => Sys2Proof.Machine.execRevoke s
  | .revokeResource => Sys2Proof.Machine.execRevokeResource s
  | .purgeClient => Sys2Proof.Machine.execPurgeClient s
  | .setTimebase => Sys2Proof.Machine.execSetTimebase s
  | .activate => Sys2Proof.Machine.execActivate s
  | .cancelActivation => Sys2Proof.Machine.execCancelActivation s
  | .storeStageProgramEntry => Sys2Proof.Machine.execStoreStageProgramEntry s
  | .storeStageErasePage => Sys2Proof.Machine.execStoreStageErasePage s
  | .storeStageEraseDirectory => Sys2Proof.Machine.execStoreStageEraseDirectory s
  | .storeStageBlankCheck => Sys2Proof.Machine.execStoreStageBlankCheck s
  | .storeStageScanCrc => Sys2Proof.Machine.execStoreStageScanCrc s
  | .storeStageWriteSettings => Sys2Proof.Machine.execStoreStageWriteSettings s
  | .storeStageInitHeader => Sys2Proof.Machine.execStoreStageInitHeader s
  | .storeLaunch => Sys2Proof.Machine.execStoreLaunch s
  | .storeDiscard => Sys2Proof.Machine.execStoreDiscard s
  | .storeClear => Sys2Proof.Machine.execStoreClear s
  | .storeRead => Sys2Proof.Machine.execStoreRead s
  | .restart done => Sys2Proof.Machine.execRestart done s
  | .tick periods => Sys2Proof.Machine.execTick periods s
  | .leaseTableTick => Sys2Proof.Machine.execLeaseTableTick s
  | .waitPoolTick order => Sys2Proof.Machine.execWaitPoolTick order s
  | .pendingUpgradesTick order => Sys2Proof.Machine.execPendingUpgradesTick order s
  | .leaseExpiry k => Sys2Proof.Machine.execLeaseExpiry k s
  | .graceEnd k => Sys2Proof.Machine.execGraceEnd k s
  | .waitTimeout j => Sys2Proof.Machine.execWaitTimeout j s
  | .upgradeTimeout n => Sys2Proof.Machine.execUpgradeTimeout n s
  | .grantFromQueue n => Sys2Proof.Machine.execGrantFromQueue n s
  | .upgradeGrant n => Sys2Proof.Machine.execUpgradeGrant n s
  | .activationApplication n => Sys2Proof.Machine.execActivationApplication n s
  | .owedNoticeDelivery p => Sys2Proof.Machine.execOwedNoticeDelivery p s
  | .heldNoticeDelivery => Sys2Proof.Machine.execHeldNoticeDelivery s
  | .dispatch => Sys2Proof.Machine.execDispatch s
  | .programEntryComplete phys => Sys2Proof.Machine.execProgramEntryComplete phys s
  | .erasePageComplete phys => Sys2Proof.Machine.execErasePageComplete phys s
  | .eraseDirectoryComplete phys => Sys2Proof.Machine.execEraseDirectoryComplete phys s
  | .blankCheckComplete => Sys2Proof.Machine.execBlankCheckComplete s
  | .scanCrcComplete => Sys2Proof.Machine.execScanCrcComplete s
  | .writeSettingsComplete phys => Sys2Proof.Machine.execWriteSettingsComplete phys s
  | .initHeaderComplete phys => Sys2Proof.Machine.execInitHeaderComplete phys s
  | .launchedCommandStart => Sys2Proof.Machine.execLaunchedCommandStart s

end Sys2Proof.Machine
end

