-- ==== Sys2Proof/Safety.lean ====
section
/-! DEFINITION. The laws of the LT128 that the spec states where each structure is owned, as predicates on one
state: the statements about every step are made of them. -/

namespace Sys2Proof.Machine

/-- The array is in its canonical form (R135; log 4). -/
def arrayLaw (s : State) : Prop := Memory.wf s.array

/-- The prescale is 1 to 64, the divider is below one tick (the table of chapter 5.1.1), and it is held at 0
while the part is STARTING (R76). -/
def timebaseLaw (s : State) : Prop :=
  1 ≤ s.prescale ∧ s.prescale ≤ 64 ∧ s.divider < s.tickLength ∧ (s.part = .starting → s.divider = 0)

/-- What a start-up leaves while it lasts: nothing queued, reserved, owed, held, listed or in hand (R100, R9,
R136). -/
def startLaw (s : State) : Prop :=
  s.part = .starting →
    s.engine = none ∧ s.store.held = [] ∧ s.activations = []
      ∧ (∀ p : PortId, (s.port p).queue = [] ∧ (s.port p).reserved = false)
      ∧ ∀ p : CPort, (s.side p).owed = []

/-- R110: a client port's queue never holds more than 16 messages, of which at most 12 are notices, and port
S's never more than 8, of which at most 6; the reserved entry counts as taken (R109). An inbound FIFO holds at most
4 frames (Table 7-1, R103). -/
def queueLaw (s : State) : Prop :=
  ∀ p : PortId, (s.port p).taken ≤ portDepth p ∧ (s.port p).notices ≤ noticeLimit p ∧ (s.port p).fifo.length ≤ 4

/-- The request in hand has its entry reserved (R109). -/
def reservedLaw (s : State) : Prop :=
  match s.engine with
  | none => True
  | some r => (s.port r.port).reserved = true

/-- The port law with what carries it from step to step. -/
def portLaw (s : State) : Prop := startLaw s ∧ queueLaw s ∧ reservedLaw s

/-- R136 and R141: while an operation runs no fault is set and no notice is held, a fault leaves nothing launched,
at most two notices are held, and a command stays LAUNCHED only while the store is not ready to start it: an operation
runs or a notice is held. -/
def pipelineLaw (s : State) : Prop :=
  (s.store.running.isSome = true → s.store.fault = none ∧ s.store.held = [])
    ∧ (s.store.fault.isSome = true → ∀ op, s.store.stage ≠ .launched op)
    ∧ s.store.held.length ≤ 2
    ∧ (s.alive = true → ∀ op, s.store.stage = .launched op → s.store.running ≠ none ∨ s.store.held ≠ [])

/-- R8 and R9: the mark is YES exactly while the list holds a PENDING entry for the resource, there is no second
one, and the list has four places. -/
def activationLaw (s : State) : Prop :=
  s.activations.length ≤ Config.activationPlaces
    ∧ (∀ n : ResNo, (s.activations.countP fun a => a.pendingFor n) =
        (s.record n).activationPending.toNat)

/-- The resource a live lease is held on. -/
def State.leaseOn (s : State) (i : SlotNo) : Option ResNo := (s.slot i).body.live?.map Lease.resource

/-- R5: the holder list of a resource names exactly the slots in ACTIVE or REVOKING on it, each once, and an
EXCLUSIVE holder is alone in it. -/
def holderLaw (s : State) : Prop :=
  ∀ n : ResNo, (s.record n).holders.Nodup
    ∧ (∀ i : SlotNo, i ∈ (s.record n).holders ↔ s.leaseOn i = some n)
    ∧ (∀ i ∈ (s.record n).holders,
        (s.slot i).body.live?.map Lease.mode = some .exclusive → (s.record n).holders = [i])

/-- The slot a QUEUED wait entry has reserved. -/
def WaitEntry.reserves : WaitEntry → Option SlotNo
  | .queued _ _ i => some i
  | .free | .ended _ _ => none

/-- The reservation answers the wait: same resource, client and mode (R46). -/
def Reservation.answers (r : Reservation) (w : Wait) : Prop :=
  r.resource = w.resource ∧ r.client = w.client ∧ r.mode = w.mode

/-- The slot is RESERVED for the wait. -/
def SlotBody.reservedFor (b : SlotBody) (w : Wait) : Prop :=
  match b with
  | .reserved r => r.answers w
  | .free | .active _ _ | .revoking _ _ | .ended _ _ _ => False

/-- R46: each QUEUED entry names one RESERVED slot of the same client, resource and mode, no two name the same,
and each RESERVED slot is named. -/
def reservationLaw (s : State) : Prop :=
  (∀ j : WaitNo, match s.wait j with
    | .queued w _ i => (s.slot i).body.reservedFor w
    | .free | .ended _ _ => True)
    ∧ (∀ j k : WaitNo, (s.wait j).reserves.isSome = true →
        (s.wait j).reserves = (s.wait k).reserves → j = k)
    ∧ (∀ (i : SlotNo) (r : Reservation), (s.slot i).body = .reserved r →
        ∃ j : WaitNo, (s.wait j).reserves = some i)

/-- The lease law with what carries it from step to step. -/
def leaseLaw (s : State) : Prop := holderLaw s ∧ reservationLaw s

/-- R5 as the spec words it: an EXCLUSIVE lease in ACTIVE or REVOKING never stands beside another live lease on
its resource. -/
def exclusiveLaw (s : State) : Prop :=
  ∀ (i k : SlotNo) (l x : Lease), (s.slot i).body.live? = some l → (s.slot k).body.live? = some x →
    l.resource = x.resource → l.mode = .exclusive → i = k

/-- R26: a client never has more than 16 slots in RESERVED, ACTIVE or REVOKING, nor more than 2 QUEUED wait
entries. -/
def capLaw (s : State) : Prop :=
  ∀ c : Client, s.slotCount c ≤ Config.slotCap ∧ (s.waitsOf c).length ≤ Config.waitCap

/-- The record owes a notice on the port: a lease with an owed kind, or an ENDED wait entry (R33, R52, R112). -/
def State.owesOn (s : State) (p : CPort) : Ref → Prop
  | .slot i => ∃ l : Lease, (s.slot i).body.lease? = some l ∧ l.client.port = p ∧ l.owed ≠ none
  | .wait j => ∃ (w : Wait) (c : WaitCause), s.wait j = .ended w c ∧ w.client.port = p

/-- R33, R52, R112: a port's owed list names each record that owes a notice on it exactly once, and no other; an
ENDED slot owes LEASE_ENDED. -/
def owedLaw (s : State) : Prop :=
  (∀ p : CPort, (s.side p).owed.Nodup ∧ ∀ r : Ref, r ∈ (s.side p).owed ↔ s.owesOn p r)
    ∧ ∀ (i : SlotNo) (l : Lease) (g : Option Nat) (c : EndCause),
        (s.slot i).body = .ended l g c → l.owed = some .leaseEnded

/-- R104, R114, R123: no notice waits where there is room for it: a port's owed list is empty or its queue takes no
notice, and on port S nothing is held or its queue takes no notice. -/
def deliveryLaw (s : State) : Prop :=
  (∀ p : CPort, (s.side p).owed = [] ∨ (s.port (.client p)).room (.client p) = false)
    ∧ (s.heldNotices = 0 ∨ s.supRoom = false)

/-- R14: a resource whose activation is pending has a holder, for it is applied in the event that drains it. -/
def markLaw (s : State) : Prop :=
  ∀ n : ResNo, (s.record n).activationPending = true → (s.record n).holders ≠ []

/-- R6: the queue of a resource names exactly the entries QUEUED at it, each once. -/
def waitListLaw (s : State) : Prop :=
  ∀ n : ResNo, (s.record n).queue.Nodup
    ∧ ∀ j : WaitNo, j ∈ (s.record n).queue ↔ (s.wait j).queued?.map Wait.resource = some n

/-- R66: a resource's pending upgrade names a holder in ACTIVE and SHARED that has a deadline, and a slot with a
deadline is named by its resource. -/
def upgradeLaw (s : State) : Prop :=
  (∀ (n : ResNo) (i : SlotNo), (s.record n).upgradePending = some i →
      i ∈ (s.record n).holders
        ∧ ∃ (l : Lease) (d : Limit), (s.slot i).body = .active l (some d) ∧ l.mode = .shared)
    ∧ ∀ (i : SlotNo) (l : Lease) (d : Limit), (s.slot i).body = .active l (some d) →
        (s.record l.resource).upgradePending = some i

/-- R59: after every event a resource's queue is empty or its head is not grantable; and while the part is STARTING
every queue is empty (R4). -/
def headLaw (s : State) : Prop :=
  (s.part = .starting → ∀ n : ResNo, (s.record n).queue = [])
    ∧ ∀ (n : ResNo) (j : WaitNo) (rest : List WaitNo) (w : Wait) (r : Limit) (i : SlotNo),
        (s.record n).queue = j :: rest → s.wait j = .queued w r i → s.grantable n w.mode = false

/-- The law of the queues' heads with what carries it from step to step. -/
def serviceLaw (s : State) : Prop := waitListLaw s ∧ upgradeLaw s ∧ headLaw s

/-- The part state, epoch and operands are those R137 stages a header operation with. -/
def State.admits (s : State) : StoreOp → Prop
  | .writeSettings t => s.part = .ready ∧ s.epoch < 65535 ∧ 1 ≤ t.prescale ∧ t.prescale ≤ 64
  | .initHeader base => s.part ≠ .ready ∧ base < 65535
  | .programEntry _ _ | .erasePage _ | .eraseDirectory | .blankCheck _ | .scanCrc => True

/-- R137: the operation running and the command in the stage were staged under the part state and epoch in force; and
while the part is STARTING there is neither (R136). -/
def stagedLaw (s : State) : Prop :=
  (∀ op : StoreOp, s.store.running = some op → s.admits op)
    ∧ (∀ op : StoreOp, (s.store.stage = .held op ∨ s.store.stage = .launched op) → s.admits op)
    ∧ (s.part = .starting → s.store.running = none ∧ s.store.stage = .empty)

/-- R150, R155: in READY the current epoch is at most 65535 and is exactly the one that the active header page
accounts for, b + k, and that page is valid. -/
def epochLaw (s : State) : Prop :=
  s.part = .ready →
    s.epoch ≤ 65535 ∧ ∃ h : HPage, s.active = some h ∧ validPage s.array h = true
      ∧ lastEpoch s.array h = s.epoch

/-! ### What the statements speak of -/

/-- A well-formed client request of the kind, from the client, is in hand and the part is not FAULTED: the
form checks of R157 pass. -/
abbrev State.clientAsks (s : State) (k : Kind) (c : Client) (f : Frame) : Prop :=
  s.serving = true ∧ s.part ≠ .faulted ∧ s.engine = some ⟨.client c.port, f⟩ ∧ byteAt f 0 = k.code
    ∧ byteAt f 1 = byteOf c.tag.val ∧ byteAt f 3 = 0x00#8 ∧ f.length = k.len

/-- A well-formed supervisor request of the kind is in hand (R157). -/
abbrev State.supAsks (s : State) (k : Kind) (f : Frame) : Prop :=
  s.serving = true ∧ s.engine = some ⟨.sup, f⟩ ∧ byteAt f 0 = k.code ∧ byteAt f 1 = 0x00#8
    ∧ byteAt f 3 = 0x00#8 ∧ f.length = k.len

/-- A client request of the kind is in hand outside FAULTED, and its fill byte, its length or its tag is wrong
(R157, R158). -/
abbrev State.clientMalformed (s : State) (k : Kind) (p : CPort) (f : Frame) : Prop :=
  s.serving = true ∧ s.part ≠ .faulted ∧ s.engine = some ⟨.client p, f⟩ ∧ byteAt f 0 = k.code
    ∧ (byteAt f 3 ≠ 0x00#8 ∨ f.length ≠ k.len ∨ 8 ≤ (byteAt f 1).toNat)

/-- A supervisor request of the kind is in hand, and its fill byte, its length or its byte 1 is wrong (R157). -/
abbrev State.supMalformed (s : State) (k : Kind) (f : Frame) : Prop :=
  s.serving = true ∧ s.engine = some ⟨.sup, f⟩ ∧ byteAt f 0 = k.code
    ∧ (byteAt f 3 ≠ 0x00#8 ∨ f.length ≠ k.len ∨ byteAt f 1 ≠ 0x00#8)

/-- The client request of the kind is carried out by leaving `u` and answering `a`: the state after it. -/
def State.clientAnswer (u : State) (k : Kind) (c : Client) (f : Frame) (a : Reply) : State :=
  u.answer k ⟨.client c.port, f⟩ a

/-- The supervisor request of the kind is carried out by leaving `u` and answering `a`: the state after it. -/
def State.supAnswer (u : State) (k : Kind) (f : Frame) (a : Reply) : State := u.answer k ⟨.sup, f⟩ a

/-- The handle of bytes 4 and 5 is accepted for the client: it names slot `i` in ACTIVE or REVOKING with its
generation, and the lease is the client's (R24). -/
abbrev State.handleFor (s : State) (c : Client) (f : Frame) (i : SlotNo) (l : Lease) : Prop :=
  byteAt f 4 = byteOf i.val ∧ byteAt f 5 = (s.slot i).generation ∧ (s.slot i).body.live? = some l
    ∧ l.client = c

/-- REVOKE_NOTICE for a lease revoked with a grace: the snapshot in state REVOKING (R35, R85, Table 11-5). -/
def revokeNotice (i : SlotNo) (gen : Byte) (l : Lease) (grace : Nat) : Message :=
  { isNotice := true, code := 0xC5#8, tag := byteOf l.client.tag.val, rid := 0x00#8, status := 0x00#8,
    body := snapshot i gen l 0x03#8 (some grace) false }

/-- The client has been told of the revocation, by a queued notice or by an owed one, `o` being what the lease owes
now (R85, R111, R113). -/
def State.toldRevoked (s : State) (i : SlotNo) (gen : Byte) (l : Lease) (o : Option Owed) (grace : Nat) : Prop :=
  (o = l.owed ∧ revokeNotice i gen l grace ∈ (s.port (.client l.client.port)).queue)
    ∨ (l.owed = none ∧ o = some .revokeNotice ∧ .slot i ∈ (s.side l.client.port).owed)
    ∨ ∃ old : Owed, l.owed = some old ∧ o = some (old.merge .revokeNotice)

/-- The values every block takes at the beginning of a start-up (R149, R100, R4, R9, R20, R45, R76, R108, R136). -/
def startUpValues (t : State) : Prop :=
  t.part = .starting ∧ (∀ i : SlotNo, t.slot i = { generation := 0#8, body := .free })
    ∧ (∀ j : WaitNo, t.wait j = .free) ∧ (∀ n : ResNo, t.record n = Record.empty)
    ∧ t.activations = [] ∧ t.store = { running := none, stage := .empty, fault := none, held := [] }
    ∧ (∀ p : PortId, (t.port p).fifo = [] ∧ (t.port p).queue = [] ∧ (t.port p).reserved = false
        ∧ (t.port p).overrun = false ∧ (t.port p).frameError = false)
    ∧ (∀ p : CPort, (t.side p).owed = []) ∧ t.engine = none ∧ t.rotation = .sup ∧ t.run = .run
    ∧ t.divider = 0

/-- The row by which the notices that wait for a port enter as an event of their own (log 12). -/
def deliveryRow : PortId → Instr
  | .client p => .owedNoticeDelivery p
  | .sup => .heldNoticeDelivery

/-- The rows of the client requests. -/
def clientRows : List Instr :=
  [.acquire, .cancelWait, .release, .renew, .upgrade, .cancelUpgrade, .downgrade, .verify,
    .queryResource, .queryLease, .listMine, .detach, .resetPort]

/-- The rows of the supervisor requests that act on no operation of the store, RESTART apart. -/
def supRows : List Instr :=
  [.status, .readLease, .readResource, .readQueue, .readWait, .revoke, .revokeResource, .purgeClient,
    .setTimebase, .activate, .cancelActivation, .storeLaunch, .storeDiscard, .storeClear, .storeRead]

/-- The kind of a request row (Table 11-1). -/
def rowKind : Instr → Option Kind
  | .acquire => some Kind.acquire
  | .cancelWait => some Kind.cancelWait
  | .release => some Kind.release
  | .renew => some Kind.renew
  | .upgrade => some Kind.upgrade
  | .cancelUpgrade => some Kind.cancelUpgrade
  | .downgrade => some Kind.downgrade
  | .verify => some Kind.verify
  | .queryResource => some Kind.queryResource
  | .queryLease => some Kind.queryLease
  | .listMine => some Kind.listMine
  | .detach => some Kind.detach
  | .resetPort => some Kind.resetPort
  | .status => some Kind.status
  | .readLease => some Kind.readLease
  | .readResource => some Kind.readResource
  | .readQueue => some Kind.readQueue
  | .readWait => some Kind.readWait
  | .revoke => some Kind.revoke
  | .revokeResource => some Kind.revokeResource
  | .purgeClient => some Kind.purgeClient
  | .setTimebase => some Kind.setTimebase
  | .activate => some Kind.activate
  | .cancelActivation => some Kind.cancelActivation
  | .storeLaunch => some Kind.storeLaunch
  | .storeDiscard => some Kind.storeDiscard
  | .storeClear => some Kind.storeClear
  | .storeRead => some Kind.storeRead
  | .restart _ => some Kind.restart
  | _ => none

end Sys2Proof.Machine
end

