-- ==== Sys2Proof/Certificates/Slice0/Obligations.lean ====
section
/-! DEFINITION. The statements for the provers, in the order of OBLIGATIONS.json. -/

open Sys2Proof Sys2Proof.Machine

/-! ### The queue and the step (log 1) -/

/-- A step carries out the command at the front of the queue on the state with the queue's rest. -/
def Obligations.FrontCommandIsExecuted : Prop :=
  ∀ (c : Instr) (rest : List Instr) (s : State), s.pending = c :: rest →
    step s = exec c { s with pending := rest }

/-- Every command answers a next state and leaves the queue of waiting commands alone; on an empty queue the block
idles (the model's choice, log 1). -/
def Obligations.EveryCommandGoesOn : Prop :=
  (∀ (c : Instr) (s : State), ∃ t, exec c s = .next t ∧ t.pending = s.pending)
  ∧ ∀ s : State, s.pending = [] → step s = .next s

/-! ### Laws kept by every step -/

/-- Every law holds at State.reset. -/
def Obligations.LawsHoldAtReset : Prop :=
  arrayLaw State.reset ∧ timebaseLaw State.reset ∧ portLaw State.reset ∧ pipelineLaw State.reset
    ∧ activationLaw State.reset ∧ leaseLaw State.reset ∧ capLaw State.reset ∧ owedLaw State.reset
    ∧ deliveryLaw State.reset ∧ markLaw State.reset ∧ serviceLaw State.reset ∧ stagedLaw State.reset
    ∧ epochLaw State.reset

/-- The array keeps its canonical form, whatever the array physically does (log 4, log 6). -/
def Obligations.ArrayLawKept : Prop :=
  ∀ s t : State, arrayLaw s → step s = .next t → arrayLaw t

/-- The timebase stays in its ranges. -/
def Obligations.TimebaseLawKept : Prop :=
  ∀ s t : State, timebaseLaw s → step s = .next t → timebaseLaw t

/-- No outbound queue ever passes its depth or its notice limit (R110), and no inbound FIFO its four frames (Table 7-1,
R103). -/
def Obligations.PortLawKept : Prop :=
  ∀ s t : State, portLaw s → step s = .next t → portLaw t

/-- No operation runs while a fault is set or a notice is held, at most two notices are held, and a command stays
LAUNCHED only while an operation runs or a notice is held (R136, R141). -/
def Obligations.PipelineLawKept : Prop :=
  ∀ s t : State, pipelineLaw s → step s = .next t → pipelineLaw t

/-- The mark is YES exactly while one PENDING entry for the resource stands on a list of at most four (R8, R9). -/
def Obligations.ActivationLawKept : Prop :=
  ∀ s t : State, activationLaw s → step s = .next t → activationLaw t

/-- Holder lists, live leases and reservations agree, and an EXCLUSIVE holder is alone (R5, R46). -/
def Obligations.LeaseLawKept : Prop :=
  ∀ s t : State, leaseLaw s → step s = .next t → leaseLaw t

/-- A port's owed list names each record that owes a notice on it exactly once, an ENDED slot owing LEASE_ENDED (R33,
R52, R112). After every event no notice waits where there is room for it: a port's owed list is empty or its queue
takes no notice, and on port S nothing is held or its queue takes no notice (R104, R114, R123). -/
def Obligations.OwedLawKept : Prop :=
  (∀ s t : State, leaseLaw s → owedLaw s → step s = .next t → owedLaw t)
  ∧ ∀ s t : State, activationLaw s → deliveryLaw s → step s = .next t → deliveryLaw t

/-- After every event each wait queue is empty or its head is not grantable (R59); with it goes that the queues name
exactly the QUEUED entries and that pending upgrades and deadlines agree (R6, R66). A resource whose activation is
pending still has a holder (R14). -/
def Obligations.ServiceLawKept : Prop :=
  (∀ s t : State, leaseLaw s → serviceLaw s → step s = .next t → serviceLaw t)
  ∧ ∀ s t : State, leaseLaw s → activationLaw s → markLaw s → step s = .next t → markLaw t

/-- While READY the active header page is valid and its b + k is exactly the current epoch, whatever the array physically
does and wherever an operation is cut short (R150, R145, R155); with it goes that a header operation was staged under the
part state and the epoch in force (R137). -/
def Obligations.EpochLawKept : Prop :=
  ∀ s t : State, arrayLaw s → stagedLaw s → epochLaw s → step s = .next t → stagedLaw t ∧ epochLaw t

/-- R26: no client ever has more than 16 slots in RESERVED, ACTIVE or REVOKING, nor more than 2 QUEUED waits. -/
def Obligations.CapLawKept : Prop :=
  ∀ s t : State, leaseLaw s → capLaw s → step s = .next t → capLaw t

/-- The lease law gives the law of R5 as the spec words it. -/
def Obligations.ExclusiveStandsAlone : Prop :=
  ∀ s : State, leaseLaw s → exclusiveLaw s

/-- A resource's sequence never falls, except where every record is emptied at once (R4, R92). -/
def Obligations.SequencesOnlyRise : Prop :=
  ∀ s t : State, step s = .next t →
    (∀ n : ResNo, (s.record n).lastSeq ≤ (t.record n).lastSeq) ∨ (∀ n : ResNo, t.record n = Record.empty)

/-! ### Supply, reset and start-up -/

/-- A start-up begins at power-on, at the rising edge of RESET#, at a RESTART and at an INIT_HEADER with
outcome OK, and every block takes its start-up values (R149, R100, R4, R20, R45, R136). -/
def Obligations.StartUpBegins : Prop :=
  (∀ s : State, s.powered = false → s.resetLow = false →
    ∃ t, exec .powerOn s = .next t ∧ startUpValues t ∧ t.powered = true ∧ t.array = s.array)
  ∧ (∀ s : State, s.powered = true → s.resetLow = true →
    ∃ t, exec .resetRelease s = .next t ∧ startUpValues t ∧ t.resetLow = false ∧ t.array = s.array)
  ∧ (∀ (s : State) (f : Frame) (done : Quirks), s.supAsks Kind.restart f →
    ∃ t, exec (.restart done) s = .next t ∧ startUpValues t ∧ t.array = s.interrupted done)
  ∧ (∀ (s : State) (base : Nat) (phys : Quirks), s.serving = true →
    s.store.running = some (.initHeader base) → (s.runInitHeader base phys).fault = none →
    ∃ t, exec (.initHeaderComplete phys) s = .next t ∧ startUpValues t
      ∧ t.array = (s.runInitHeader base phys).array)

/-- RESET# falling and power loss: the operation running is lost, the array keeps what had been done, ATTN# is high
and no transaction is in progress (R100, R148, R149; what power loss leaves of the volatile state, log 19). What had
been done, whatever the array physically did: nothing where nothing was running; after a PROGRAM_ENTRY, an ERASE_PAGE
or an ERASE_DIRECTORY every byte outside the entry, the page or the directory is as before, and each entry it was
changing is as the operation would have it, DAMAGED, or as before; nothing after a BLANK_CHECK or a SCAN_CRC; and no
byte of the directory after a header operation or the header work of a start-up (R148; log 6). While the part has
supply and RESET# is high, ATTN# is low exactly while the port's queue holds a message (R106). -/
def Obligations.ResetAndPowerLossAbandon : Prop :=
  (∀ (s : State) (done : Quirks), s.resetLow = false →
    ∃ t, exec (.resetAssert done) s = .next t ∧ t.resetLow = true ∧ t.array = s.interrupted done
      ∧ t.store.running = none ∧ t.alive = false
      ∧ ∀ p : PortId, t.attnLow p = false ∧ (t.port p).transfer = none)
  ∧ (∀ (s : State) (done : Quirks), s.powered = true →
    ∃ t, exec (.powerLoss done) s = .next t ∧ t.powered = false ∧ t.array = s.interrupted done
      ∧ t.store.running = none ∧ t.alive = false
      ∧ ∀ p : PortId, t.attnLow p = false ∧ (t.port p).transfer = none)
  ∧ (∀ (s : State) (p : PortId), s.alive = true → (s.attnLow p = true ↔ (s.port p).queue ≠ []))
  ∧ ∀ (s : State) (done : Quirks), Memory.wf s.array →
    let m := s.interrupted done
    let asBefore : Nat → Prop := fun a => Memory.read m a = Memory.read s.array a
    (s.alive = false ∨ (s.store.running = none ∧ s.part ≠ .starting) → m = s.array)
    ∧ ((∃ p : Option PageNo, s.store.running = some (.blankCheck p)) ∨ s.store.running = some .scanCrc →
        m = s.array)
    ∧ (∀ (n : ResNo) (image : List Byte), s.store.running = some (.programEntry n image) → image.length = 22 →
      (∀ a : Nat, a < 24 * n.val ∨ 24 * n.val + 24 ≤ a → asBefore a)
      ∧ (imageOf m n = image ++ crc16Bytes image ∨ classify (imageOf m n) = .damaged
          ∨ imageOf m n = imageOf s.array n))
    ∧ (∀ p : PageNo, s.store.running = some (.erasePage p) →
      (∀ a : Nat, a < 384 * p.val ∨ 384 * p.val + 384 ≤ a → asBefore a)
      ∧ ∀ n : ResNo, n.val / 16 = p.val → blank (imageOf m n) = true ∨ classify (imageOf m n) = .damaged
          ∨ imageOf m n = imageOf s.array n)
    ∧ (s.store.running = some .eraseDirectory →
      (∀ a : Nat, 6144 ≤ a → asBefore a)
      ∧ ∀ n : ResNo, blank (imageOf m n) = true ∨ classify (imageOf m n) = .damaged
          ∨ imageOf m n = imageOf s.array n)
    ∧ ((∃ x : Settings, s.store.running = some (.writeSettings x))
        ∨ (∃ base : Nat, s.store.running = some (.initHeader base)) ∨ s.store.running = none →
      ∀ a : Nat, a < 6144 → asBefore a)

/-- A start-up completes: directory loaded, part state, epoch and active page as the header work came out, RESTARTED
on every port, START_REPORT at port S's tail; in READY and SPENT the prescale and the detach policies of the active
page, in FAULTED the defaults (R154). No byte of the directory changes. Where the reading of the header pages fails in
passing, none is found valid (R156; the operand is the model's, log 7). -/
def Obligations.StartUpCompletes : Prop :=
  ∀ (s : State) (run : StartUpRun), s.alive = true → s.part = .starting →
    let r := startUpFound s.array run
    (run.readFails = false → r = startUpWork s.array run.phys)
    ∧ (run.readFails = true → r.part = .faulted ∧ r.epoch = 0 ∧ r.active = none
        ∧ r.outcome = .noValidHeader ∧ r.array = s.array)
    ∧ (Memory.wf s.array → ∀ a : Nat, a < 6144 → Memory.read r.array a = Memory.read s.array a)
    ∧ ∃ t, exec (.startUpComplete run) s = .next t
      ∧ t.part = r.part ∧ t.part ≠ .starting ∧ t.epoch = r.epoch ∧ t.active = r.active ∧ t.array = r.array
      ∧ (∀ n : ResNo, t.entry n = classify (imageOf t.array n))
      ∧ (∀ p : PortId, (t.port p).restarted = true)
      ∧ (t.port .sup).queue = (s.port .sup).queue ++ [r.report]
      ∧ (t.part = .faulted → t.epoch = 0 ∧ t.prescale = 4 ∧ ∀ p : CPort, (t.side p).policy = .release)
      ∧ (Memory.wf s.array → t.part = .ready ∨ t.part = .spent →
          ∃ (h : HPage) (x : Settings), t.active = some h ∧ validPage t.array h = true
            ∧ headerSettings? (headerOf t.array h) = some x ∧ t.prescale = x.prescale
            ∧ ∀ p : CPort, (t.side p).policy = x.policy p)
      ∧ t.slots = s.slots ∧ t.waits = s.waits ∧ t.records = s.records ∧ t.store = s.store
      ∧ t.divider = s.divider ∧ t.engine = s.engine

/-- Which page a start-up selects, and what its header work comes to: of two valid pages the one with the higher base, H0
where they are equal; SPENT at b + k when the space is used up, else READY at b + k + 1; FAULTED at epoch 0 without a
valid page and when a write failed (R151, R152, R153, R154). -/
def Obligations.EpochOpened : Prop :=
  (∀ m : List Host.Cell,
    (validPage m .h0 = false → validPage m .h1 = false → selectHeader m = none)
    ∧ (validPage m .h0 = true → validPage m .h1 = false → selectHeader m = some .h0)
    ∧ (validPage m .h0 = false → validPage m .h1 = true → selectHeader m = some .h1)
    ∧ (validPage m .h0 = true → validPage m .h1 = true →
        (headerBase (headerOf m .h0) < headerBase (headerOf m .h1) → selectHeader m = some .h1)
        ∧ (headerBase (headerOf m .h1) ≤ headerBase (headerOf m .h0) → selectHeader m = some .h0)))
  ∧ (∀ (m : List Host.Cell) (phys : Quirks), selectHeader m = none →
      (startUpWork m phys).part = .faulted ∧ (startUpWork m phys).epoch = 0
        ∧ (startUpWork m phys).outcome = .noValidHeader ∧ (startUpWork m phys).array = m)
  ∧ ∀ (m : List Host.Cell) (phys : Quirks) (h : HPage), selectHeader m = some h →
    (65535 < lastEpoch m h + 1 →
      (startUpWork m phys).part = .spent ∧ (startUpWork m phys).epoch = lastEpoch m h
        ∧ (startUpWork m phys).outcome = .epochSpaceUsed)
    ∧ (lastEpoch m h + 1 ≤ 65535 → (runPlan (headerWork m h) phys m).failed = none →
      (startUpWork m phys).part = .ready ∧ (startUpWork m phys).epoch = lastEpoch m h + 1)
    ∧ (∀ f : Nat, (runPlan (headerWork m h) phys m).failed = some f →
      (startUpWork m phys).part = .faulted ∧ (startUpWork m phys).epoch = 0
        ∧ (startUpWork m phys).outcome = .headerWriteFailed f)

/-- A start-up that reached READY is followed by a higher epoch at the next start-up that reaches READY, whatever the
array physically does in either, a cleanup that is left incomplete included (R151, R155; log 6). -/
def Obligations.RestartOpensHigherEpoch : Prop :=
  ∀ (m : List Host.Cell) (phys phys' : Quirks), Memory.wf m → (startUpWork m phys).part = .ready →
    (startUpWork (startUpWork m phys).array phys').part = .ready →
    (startUpWork m phys).epoch < (startUpWork (startUpWork m phys).array phys').epoch

/-- A start-up cut short anywhere in its header work, inside a step included, never lets an epoch at or below b + k be
opened again (R150, R151, R155; log 6). -/
def Obligations.CutShortStartNeverRepeats : Prop :=
  ∀ (m : List Host.Cell) (h : HPage) (done phys : Quirks), Memory.wf m → selectHeader m = some h →
    (startUpWork (interruptPlan (startUpPlan m) done m) phys).part = .ready →
    lastEpoch m h < (startUpWork (interruptPlan (startUpPlan m) done m) phys).epoch

/-! ### Transactions and dispatch -/

/-- A WRITE is decided at its rising edge by the four checks, in order, and touches nothing but its port; a frame is L
from 4 to 48, L message bytes, and the CRC-8 over both (R103). -/
def Obligations.WriteDecidedInOrder : Prop :=
  (∀ (sent : List Byte) (f : Frame), frameOf? sent = some f ↔
    4 ≤ f.length ∧ f.length ≤ 48 ∧ sent = byteOf f.length :: (f ++ [crc8 (byteOf f.length :: f)]))
  ∧ ∀ (s : State) (p : PortId) (sent : List Byte), s.alive = true → (s.port p).transfer = none →
    ∃ t u, exec (.writeTransaction p .whole sent) s = .next t ∧ t = s.setPort p u
      ∧ u.queue = (s.port p).queue ∧ u.reserved = (s.port p).reserved ∧ u.restarted = false
      ∧ u.transfer = none
      ∧ (s.part = .starting →
          u.fifo = (s.port p).fifo ∧ u.frameError = false ∧ u.overrun = false)
      ∧ (s.part ≠ .starting → frameOf? sent = none →
          u.fifo = (s.port p).fifo ∧ u.frameError = true ∧ u.overrun = false)
      ∧ (∀ f, s.part ≠ .starting → frameOf? sent = some f → 4 ≤ (s.port p).fifo.length →
          u.fifo = (s.port p).fifo ∧ u.frameError = false ∧ u.overrun = true)
      ∧ (∀ f, s.part ≠ .starting → frameOf? sent = some f → (s.port p).fifo.length < 4 →
          u.fifo = (s.port p).fifo ++ [f] ∧ u.frameError = false ∧ u.overrun = false)

/-- A READ clocked to the end of the CRC-8 sends the head message and removes it; then the notices that waited for the
room enter, in the same event, as OWED_NOTICE_DELIVERY or HELD_NOTICE_DELIVERY would have them enter, from the head of
the owed list on, until none waits or there is no more room. A READ cut short, and one of an empty queue, remove
nothing (R104, R114, R123). The form of sdo is the model's, log 9; the delivery rows as events of their own, log 12.
-/
def Obligations.ReadRemovesCompleteHead : Prop :=
  ∀ (s : State) (p : PortId) (bits : Nat), s.alive = true → (s.port p).transfer = none → 8 ≤ bits →
    ∃ t, exec (.readTransaction p .whole bits) s = .next t ∧ (t.port p).transfer = none
      ∧ (t.port p).fifo = (s.port p).fifo
      ∧ ((s.port p).queue = [] → (t.port p).queue = []
          ∧ (t.port p).sdo = padTo (bits / 8)
            [statusByte1 s.part (s.port p), statusByte2 (s.port p), 0x00#8, crc8 [0x00#8]])
      ∧ ∀ (m : Message) (rest : List Message), (s.port p).queue = m :: rest →
          let sdo := padTo (bits / 8)
            ([statusByte1 s.part (s.port p), statusByte2 (s.port p), byteOf m.bytes.length] ++ m.bytes
              ++ [crc8 (byteOf m.bytes.length :: m.bytes)])
          (t.port p).sdo = sdo
          ∧ (bits < 8 * (m.bytes.length + 4) → (t.port p).queue = (s.port p).queue)
          ∧ (8 * (m.bytes.length + 4) ≤ bits →
              (s.serving = true → exec (.readTransaction p .whole bits) s =
                exec (deliveryRow p) (s.setPort p
                    { s.port p with
                      queue := rest, overrun := false, frameError := false, restarted := false, transfer := none
                      sdo := sdo }))
              ∧ (p = .sup → t.heldNotices = 0 ∨ t.supRoom = false)
              ∧ ∃ ns : List Message, (∀ x ∈ ns, x.isNotice = true ∨ x ∈ s.store.held)
                ∧ (t.port p).queue = rest ++ ns
                ∧ ∀ q : CPort, p = .client q →
                  ((t.side q).owed = [] ∨ (t.port p).room p = false)
                  ∧ (owedLaw s → (t.side q).owed = (s.side q).owed.drop ns.length))

/-- The four moments of a transaction. The falling edge captures the status word and nothing else. At the end of its
first byte, which is the end of the kind byte, the flags that the byte carries set are cleared, also where they were
set again meanwhile, and one it does not carry stays; an unknown kind, a byte other than 02h, 03h and 05h, sets
FRAME_ERROR (in STARTING too, log 25). At the end of the second byte a READ fixes the head message of that moment. The
rising edge before the end of the kind byte has no effect; STATUS and unknown kinds shift out the status word and low
bytes; a READ whose fixed message was removed meanwhile removes nothing, and one that removes its message is followed
by the delivery of the notices that waited (the delivery rows as events of their own, log 12). The falling edge and
then the rising edge are the whole of it (R101, R102, R104, R105). The moments as commands of their own, and the
record sdo, are the model's (log 9). -/
def Obligations.TransactionsInTheirMoments : Prop :=
  (∀ (part : PartState) (u : PortUnit), (statusByte1 part u).getLsbD 2 = u.overrun
    ∧ (statusByte1 part u).getLsbD 1 = u.frameError ∧ (statusByte1 part u).getLsbD 0 = u.restarted)
  ∧ ∀ (s : State) (p : PortId) (sent : List Byte) (kind : Byte) (bits : Nat), s.alive = true →
    kind ≠ 0x02#8 → kind ≠ 0x03#8 → kind ≠ 0x05#8 →
    let u := s.port p
    let row : TransKind → Edge → Instr := fun k e => match k with
      | .write => .writeTransaction p e sent
      | .read => .readTransaction p e bits
      | .status => .statusTransaction p e bits
      | .unknown => .unknownKindTransaction p e kind bits
    let ended : Bool → State := fun error => s.setPort p
      { u with
        overrun := false, frameError := error, restarted := false, transfer := none
        sdo := padTo (bits / 8) [statusByte1 s.part u, statusByte2 u] }
    (u.transfer = none → ∀ k : TransKind,
      let begun : State := s.setPort p
        { u with
          transfer := some
            { kind := k, word1 := statusByte1 s.part u, word2 := statusByte2 u, reported := false, fixed := false,
              sending := none, headStill := true } }
      exec (row k .begins) s = .next begun ∧ exec (row k .ends) begun = exec (row k .whole) s
      ∧ (bits < 8 → k ≠ .write → exec (row k .whole) s = .next s)
      ∧ (8 ≤ bits → k = .status → exec (row k .whole) s = .next (ended false))
      ∧ (8 ≤ bits → k = .unknown → exec (row k .whole) s = .next (ended true)))
    ∧ ∀ x : Transfer, u.transfer = some x →
      (x.reported = false →
        let v : PortUnit :=
          { u with
            overrun := u.overrun && !x.word1.getLsbD 2
            frameError := (u.frameError && !x.word1.getLsbD 1) || decide (x.kind = .unknown)
            restarted := u.restarted && !x.word1.getLsbD 0
            transfer := some { x with reported := true } }
        exec (row x.kind .reports) s = .next (s.setPort p v)
        ∧ exec (row x.kind .fixes) s = exec (row x.kind .fixes) (s.setPort p v)
        ∧ (8 ≤ bits ∨ x.kind = .write → exec (row x.kind .ends) s = exec (row x.kind .ends) (s.setPort p v))
        ∧ (bits < 8 → x.kind ≠ .write →
          exec (row x.kind .ends) s = .next (s.setPort p { u with transfer := none })))
      ∧ (x.reported = true → exec (row x.kind .reports) s = .next s
        ∧ (x.kind = .status ∨ x.kind = .unknown → exec (row x.kind .ends) s = .next (s.setPort p
            { u with transfer := none, sdo := padTo (bits / 8) [x.word1, x.word2] }))
        ∧ (x.kind = .read →
          let kept : State := s.setPort p
            { u with
              transfer := none, sdo := padTo (bits / 8) (x.word1 :: x.word2 :: readPayload x.sending) }
          (x.fixed = false →
            exec (row .read .fixes) s = .next (s.setPort p
              { u with
                transfer := some { x with fixed := true, sending := u.queue.head?, headStill := true } })
            ∧ (16 ≤ bits → exec (row .read .ends) s = exec (row .read .ends) (s.setPort p
              { u with
                transfer := some { x with fixed := true, sending := u.queue.head?, headStill := true } }))
            ∧ (bits < 16 → x.sending = none → exec (row .read .ends) s = .next kept))
          ∧ (x.fixed = true →
            exec (row .read .fixes) s = .next s
            ∧ (x.headStill = false ∨ x.sending = none → exec (row .read .ends) s = .next kept)
            ∧ ∀ m : Message, x.headStill = true → x.sending = some m →
              (bits < 8 * (m.bytes.length + 4) → exec (row .read .ends) s = .next kept)
              ∧ (8 * (m.bytes.length + 4) ≤ bits →
                (s.serving = true → exec (row .read .ends) s =
                  exec (deliveryRow p) (s.setPort p
                      { u with
                        queue := u.queue.tail, transfer := none
                        sdo := padTo (bits / 8) (x.word1 :: x.word2 :: readPayload x.sending) }))
                ∧ ∃ (t : State) (ns : List Message), exec (row .read .ends) s = .next t
                  ∧ (t.port p).transfer = none ∧ (t.port p).queue = u.queue.tail ++ ns
                  ∧ ∀ y ∈ ns, y.isNotice = true ∨ y ∈ s.store.held))))

/-- The dispatcher takes the head frame of the first eligible port after its pointer, sets the pointer and reserves one
entry; with none eligible it waits; a port is eligible when a frame waits and an outbound entry is free (R108). -/
def Obligations.DispatchTakesNextEligible : Prop :=
  (∀ (s : State) (p : PortId), s.eligible p = true ↔
    (s.port p).fifo ≠ [] ∧ (s.port p).taken < (match p with | .client _ => 16 | .sup => 8))
  ∧ ∀ s : State, s.serving = true → s.engine = none →
    ((∀ p : PortId, s.eligible p = false) → exec .dispatch s = .next s)
    ∧ ∀ (before after : List PortId) (p : PortId) (f : Frame) (rest : List Frame),
        portsAfter s.rotation = before ++ p :: after → (∀ q ∈ before, s.eligible q = false) →
        s.eligible p = true → (s.port p).fifo = f :: rest →
        ∃ t, exec .dispatch s = .next t ∧ t.engine = some ⟨p, f⟩ ∧ t.rotation = p
          ∧ t.port p = { s.port p with fifo := rest, reserved := true }
          ∧ (∀ q, q ≠ p → t.port q = s.port q)
          ∧ t.slots = s.slots ∧ t.waits = s.waits ∧ t.records = s.records ∧ t.store = s.store

/-! ### Requests: response, kind, form and part state -/

/-- A response enters the reserved entry behind every message of its queue, carries code 80h plus the kind and the
request id, and frees the engine, with nothing else changed. It begins with the fields every response of its kind carries,
a resource (1 byte), a handle (2) or a resource and a fence (4), each copied from its place in the frame, or 00h in every
byte where the frame is too short to hold it. A frame of unknown kind is answered with code FFh and the header alone (R109,
R157, chapter 11.3; a field is copied or cleared whole, log 15). -/
def Obligations.UnknownKindAnswered : Prop :=
  (∀ (s : State) (k : Kind) (r : Request) (a : Reply),
    ∃ m : Message, m.isNotice = false ∧ m.code = 0x80#8 + k.code ∧ m.rid = byteAt r.frame 2
      ∧ m.status = a.status.code
      ∧ (k.always = [] → m.body = a.extra)
      ∧ (∀ w : Nat, k.always = [w] →
          (4 + w ≤ r.frame.length → m.body = (r.frame.drop 4).take w ++ a.extra)
          ∧ (r.frame.length < 4 + w → m.body = List.replicate w 0x00#8 ++ a.extra))
      ∧ (∀ w x : Nat, k.always = [w, x] →
          (4 + w + x ≤ r.frame.length → m.body = (r.frame.drop 4).take (w + x) ++ a.extra)
          ∧ (4 + w ≤ r.frame.length → r.frame.length < 4 + w + x →
              m.body = (r.frame.drop 4).take w ++ List.replicate x 0x00#8 ++ a.extra)
          ∧ (r.frame.length < 4 + w → m.body = List.replicate (w + x) 0x00#8 ++ a.extra))
      ∧ s.answer k r a = { s.setPort r.port
          { s.port r.port with queue := (s.port r.port).queue ++ [m], reserved := false } with
          engine := none })
  ∧ (∀ c ∈ clientRows ++ supRows ++ [.restart []], (rowKind c).map Kind.always = some
      (match c with
        | .acquire | .cancelWait | .revokeResource | .activate | .cancelActivation | .storeRead => [1]
        | .release | .renew | .upgrade | .cancelUpgrade | .downgrade | .revoke => [2]
        | .verify => [1, 4]
        | _ => []))
  ∧ ∀ (s : State) (r : Request), s.serving = true → s.engine = some r →
    knownKind r.port (byteAt r.frame 0) = false →
    ∃ st : Byte, exec .unknownRequestKind s = .next (s.placeResponse r.port
        { isNotice := false, code := 0xFF#8, tag := r.tagByte, rid := byteAt r.frame 2, status := st,
          body := [] })
      ∧ (r.port ≠ .sup → s.part = .faulted → st = 0x11#8)
      ∧ ((r.port = .sup ∨ s.part ≠ .faulted) → st = 0x10#8)

/-- In FAULTED every client request is answered PART_FAULTED, whatever its form; elsewhere a fill byte that is not 00h, a
wrong length, a tag above 7 and, on port S, a byte 1 that is not 00h are answered BAD_REQUEST; nothing else changes
(R157, R158, R156). -/
def Obligations.RequestsTurnedAway : Prop :=
  (∀ c ∈ clientRows, ∀ (k : Kind) (s : State) (p : CPort) (f : Frame), rowKind c = some k →
    (s.serving = true → s.part = .faulted → s.engine = some ⟨.client p, f⟩ → byteAt f 0 = k.code →
      exec c s = .next (s.answer k ⟨.client p, f⟩ (Reply.bare .partFaulted)))
    ∧ (s.clientMalformed k p f →
      exec c s = .next (s.answer k ⟨.client p, f⟩ (Reply.bare .badRequest))))
  ∧ (∀ c ∈ supRows ++ [.restart []], ∀ (k : Kind) (s : State) (f : Frame), rowKind c = some k →
    s.supMalformed k f → exec c s = .next (s.answer k ⟨.sup, f⟩ (Reply.bare .badRequest)))

/-! ### ACQUIRE, CANCEL_WAIT, RELEASE -/

/-- GRANTED: the lowest FREE slot becomes ACTIVE with the next fence and the term, joins the tail of the holder list, and
nothing else in the tables changes (R41, R22, R27, R29). -/
def Obligations.AcquireGrantsAtOnce : Prop :=
  ∀ (s : State) (c : Client) (f : Frame) (m : Mode) (e : Fields) (i : SlotNo) (term : Nat),
    s.clientAsks Kind.acquire c f → s.part = .ready → modeOf? (byteAt f 5) = some m →
    s.entry f.resource = .defined e → e.admits c.port = true →
    ¬(m = .shared ∧ e.kind = .exclusiveOnly) → s.holds c f.resource = false →
    s.waitOf? c f.resource = none → s.slotCount c < 16 →
    (s.slot i).body = .free → (∀ k < i, (s.slot k).body ≠ .free) →
    s.grantable f.resource m = true → (s.record f.resource).queue = [] →
    term = (if f.word 6 = 0 then e.defaultTerm else min (f.word 6) e.maxTerm) →
    ∃ u : State, exec .acquire s = .next (u.clientAnswer Kind.acquire c f
          { status := .granted
            extra := [byteOf i.val, (s.slot i).generation] ++ be16 s.epoch
              ++ be16 ((s.record f.resource).lastSeq + 1) ++ be16 term })
      ∧ u = (s.setSlot i
          { generation := (s.slot i).generation
            body := .active
              { resource := f.resource, client := c, mode := m,
                fence := { epoch := s.epoch, seq := (s.record f.resource).lastSeq + 1 },
                granted := term, remaining := term, renewals := 0, warned := false, owed := none }
              none }).setRecord f.resource
          { s.record f.resource with
            holders := (s.record f.resource).holders ++ [i]
            lastSeq := (s.record f.resource).lastSeq + 1
            fenceSpent := decide ((s.record f.resource).lastSeq + 1 = 65535) }

/-- QUEUED: the lowest FREE slot and the lowest FREE wait entry become one waiting acquisition at the queue's tail, and
the response gives the position (R42). -/
def Obligations.AcquireQueues : Prop :=
  ∀ (s : State) (c : Client) (f : Frame) (m : Mode) (e : Fields) (i : SlotNo) (j : WaitNo),
    s.clientAsks Kind.acquire c f → s.part = .ready → modeOf? (byteAt f 5) = some m →
    s.entry f.resource = .defined e → e.admits c.port = true →
    ¬(m = .shared ∧ e.kind = .exclusiveOnly) → s.holds c f.resource = false →
    s.waitOf? c f.resource = none → (s.record f.resource).fenceSpent = false → s.slotCount c < 16 →
    (s.slot i).body = .free → (∀ k < i, (s.slot k).body ≠ .free) →
    ¬(s.grantable f.resource m = true ∧ (s.record f.resource).queue = []) → f.word 8 ≠ 0 →
    e.waitAllowed = true → (s.waitsOf c).length < 2 → s.wait j = .free → (∀ k < j, s.wait k ≠ .free) →
    ∃ u : State, exec .acquire s = .next (u.clientAnswer Kind.acquire c f
          { status := .queued, extra := [byteOf ((s.record f.resource).queue.length + 1)] })
      ∧ u = ((s.setSlot i
          { generation := (s.slot i).generation
            body := .reserved { resource := f.resource, client := c, mode := m, term := f.word 6 } }).setWait
          j (.queued { client := c, resource := f.resource, mode := m, rid := byteAt f 2 }
            (if f.word 8 = 65535 then .indefinite else .ticks (f.word 8)) i)).setRecord f.resource
          { s.record f.resource with queue := (s.record f.resource).queue ++ [j] }

/-- The refusals of ACQUIRE, each at its place in the ordered checks, with no other change (R37, R38). -/
def Obligations.AcquireRefusedInOrder : Prop :=
  ∀ (s : State) (c : Client) (f : Frame), s.clientAsks Kind.acquire c f →
    let refused : Status → Prop := fun st =>
      exec .acquire s = .next (s.clientAnswer Kind.acquire c f (Reply.bare st))
    let n := f.resource
    (modeOf? (byteAt f 5) = none → refused .badRequest)
    ∧ ∀ m : Mode, modeOf? (byteAt f 5) = some m →
      (s.part = .spent → refused .epochSpent)
      ∧ (s.part = .ready →
        (s.entry n = .undefined → refused .noResource)
        ∧ (s.entry n = .damaged → refused .damaged)
        ∧ ∀ e : Fields, s.entry n = .defined e →
          (e.admits c.port = false → refused .notAdmitted)
          ∧ (e.admits c.port = true →
            (m = .shared → e.kind = .exclusiveOnly → refused .modeNotAllowed)
            ∧ (¬(m = .shared ∧ e.kind = .exclusiveOnly) →
              (s.holds c n = true → refused .alreadyHolder)
              ∧ (s.holds c n = false →
                ((s.waitOf? c n).isSome = true → refused .alreadyWaiting)
                ∧ (s.waitOf? c n = none →
                  ((s.record n).fenceSpent = true → refused .fenceSpent)
                  ∧ ((s.record n).fenceSpent = false →
                    (16 ≤ s.slotCount c → refused .capReached)
                    ∧ (s.slotCount c < 16 →
                      ((∀ i : SlotNo, (s.slot i).body ≠ .free) → refused .tableFull)
                      ∧ (∀ i : SlotNo, (s.slot i).body = .free →
                        ¬(s.grantable n m = true ∧ (s.record n).queue = []) →
                        (f.word 8 = 0 ∨ e.waitAllowed = false → refused .busy)
                        ∧ (¬(f.word 8 = 0 ∨ e.waitAllowed = false) →
                          (2 ≤ (s.waitsOf c).length → refused .waitLimit)
                          ∧ ((s.waitsOf c).length < 2 → (∀ j : WaitNo, s.wait j ≠ .free) →
                              refused .noWaitSpace))))))))))

/-- The conditions of R39: when a resource is grantable for each mode. -/
def Obligations.GrantableWhen : Prop :=
  ∀ (s : State) (n : ResNo),
    (s.grantable n .exclusive = true ↔
      ∃ e : Fields, s.entry n = .defined e ∧ (s.record n).fenceSpent = false
        ∧ (s.record n).activationPending = false ∧ (s.record n).holders = [])
    ∧ (s.grantable n .shared = true ↔
      ∃ e : Fields, s.entry n = .defined e ∧ (s.record n).fenceSpent = false
        ∧ (s.record n).activationPending = false ∧ (s.record n).holders.length < e.holderLimit
        ∧ e.kind = .shareable ∧ s.modeHeld n ≠ some .exclusive ∧ (s.record n).upgradePending = none)

/-- CANCEL_WAIT ends the client's QUEUED wait: it leaves its queue, its slot becomes FREE with the generation advanced,
and the entry becomes FREE; without one it is NOT_WAITING. RELEASE takes the lease off the holder list, clears an
upgrade pending on it, withdraws its owed notice and frees the slot. The grant rule runs before each OK (R51, R52, R54,
R32, R33, R56). -/
def Obligations.CancelWaitAndRelease : Prop :=
  (∀ (s : State) (c : Client) (f : Frame), s.clientAsks Kind.cancelWait c f →
    (s.waitOf? c f.resource = none →
      exec .cancelWait s = .next (s.clientAnswer Kind.cancelWait c f (Reply.bare .notWaiting)))
    ∧ ∀ (j : WaitNo) (w : Wait) (r : Limit) (i : SlotNo), s.waitOf? c f.resource = some j →
      s.wait j = .queued w r i →
      ∃ u : State, exec .cancelWait s = .next
            ((u.grantRule f.resource).clientAnswer Kind.cancelWait c f (Reply.bare .ok))
        ∧ u = ((s.setRecord w.resource
            { s.record w.resource with queue := (s.record w.resource).queue.erase j }).setSlot i
            { generation := (s.slot i).generation + 1, body := .free }).setWait j .free)
  ∧ ∀ (s : State) (c : Client) (f : Frame) (i : SlotNo) (l : Lease), s.clientAsks Kind.release c f →
    s.handleFor c f i l →
    ∃ u : State, exec .release s = .next
          ((u.grantRule l.resource).clientAnswer Kind.release c f (Reply.bare .ok))
      ∧ u = ((s.setRecord l.resource
          { s.record l.resource with
            holders := (s.record l.resource).holders.erase i
            upgradePending :=
              if (s.record l.resource).upgradePending = some i then none
              else (s.record l.resource).upgradePending }).setSide c.port
          { s.side c.port with owed := (s.side c.port).owed.erase (.slot i) }).setSlot i
          { generation := (s.slot i).generation + 1, body := .free }

/-- The requests that carry a handle: a slot above 127 is malformed, a handle that is not accepted is STALE_HANDLE, and
where the owner is checked an accepted handle of another client is NOT_OWNER; in SPENT an UPGRADE is EPOCH_SPENT before
its handle is looked at; nothing else changes (R24, R64). -/
def Obligations.HandlesJudged : Prop :=
  ∀ (s : State) (c : Client) (f : Frame),
    let owners : List Instr := [.release, .renew, .upgrade, .cancelUpgrade, .downgrade]
    (∀ x ∈ Instr.queryLease :: owners, ∀ k : Kind, rowKind x = some k → s.clientAsks k c f →
      (128 ≤ (byteAt f 4).toNat → exec x s = .next (s.clientAnswer k c f (Reply.bare .badRequest)))
      ∧ ∀ i : SlotNo, s.part = .ready → byteAt f 4 = byteOf i.val →
        ((s.slot i).generation ≠ byteAt f 5 ∨ (s.slot i).body.live? = none) →
        exec x s = .next (s.clientAnswer k c f (Reply.bare .staleHandle)))
    ∧ (∀ x ∈ owners, ∀ k : Kind, rowKind x = some k → s.clientAsks k c f → s.part = .ready →
      ∀ (i : SlotNo) (l : Lease) (d : Client), s.handleFor d f i l → d ≠ c →
        exec x s = .next (s.clientAnswer k c f (Reply.bare .notOwner)))
    ∧ (s.clientAsks Kind.upgrade c f → s.part = .spent → (byteAt f 4).toNat < 128 →
      exec .upgrade s = .next (s.clientAnswer Kind.upgrade c f (Reply.bare .epochSpent)))

/-! ### RENEW, UPGRADE, CANCEL_UPGRADE, DOWNGRADE -/

/-- RENEW replaces the term, counts the renewal up to 255, sets warned to NO and withdraws an owed EXPIRY_WARNING; the
fence, mode, handle and place stay (R82). -/
def Obligations.RenewReplacesTerm : Prop :=
  ∀ (s : State) (c : Client) (f : Frame) (i : SlotNo) (l : Lease) (d : Option Limit) (e : Fields)
    (term : Nat), s.clientAsks Kind.renew c f → s.handleFor c f i l → (s.slot i).body = .active l d →
    s.entry l.resource = .defined e → (s.record l.resource).activationPending = false →
    ¬(0 < e.renewLimit ∧ l.renewals = e.renewLimit) →
    ¬(e.contention = .yields ∧ s.contended i l.resource = true) →
    term = (if f.word 6 = 0 then e.defaultTerm else min (f.word 6) e.maxTerm) →
    ∃ u : State, exec .renew s = .next (u.clientAnswer Kind.renew c f
          { status := .ok, extra := be16 term ++ [byteOf (min 255 (l.renewals + 1))] })
      ∧ u.slot i =
          { generation := (s.slot i).generation
            body := .active
              { l with
                granted := term, remaining := term, renewals := min 255 (l.renewals + 1)
                warned := false
                owed := if l.owed = some .expiryWarning then none else l.owed } d }
      ∧ (∀ k, k ≠ i → u.slot k = s.slot k)
      ∧ (u.side c.port).owed =
          (if l.owed = some .expiryWarning then (s.side c.port).owed.erase (.slot i)
           else (s.side c.port).owed)
      ∧ u.records = s.records ∧ u.waits = s.waits ∧ u.ports = s.ports ∧ u.entries = s.entries

/-- The refusals of RENEW and of UPGRADE on an accepted handle of the client, in their order, with no other change
(R82, R64). -/
def Obligations.RenewAndUpgradeRefused : Prop :=
  ∀ (s : State) (c : Client) (f : Frame) (i : SlotNo) (l : Lease) (e : Fields), s.part = .ready →
    s.handleFor c f i l → s.entry l.resource = .defined e →
    let r := s.record l.resource
    (s.clientAsks Kind.renew c f →
      let refused : Status → Prop := fun st =>
        exec .renew s = .next (s.clientAnswer Kind.renew c f (Reply.bare st))
      ((s.slot i).body.isRevoking = true → refused .revoking)
      ∧ ((s.slot i).body.isRevoking = false →
        (r.activationPending = true → refused .superseding)
        ∧ (r.activationPending = false →
          (0 < e.renewLimit ∧ l.renewals = e.renewLimit → refused .renewLimit)
          ∧ (¬(0 < e.renewLimit ∧ l.renewals = e.renewLimit) →
            e.contention = .yields →
            (r.queue ≠ [] ∨ ∃ k, r.upgradePending = some k ∧ k ≠ i) → refused .contended))))
    ∧ (s.clientAsks Kind.upgrade c f →
      let refused : Status → Prop := fun st =>
        exec .upgrade s = .next (s.clientAnswer Kind.upgrade c f (Reply.bare st))
      ((s.slot i).body.isRevoking = true → refused .revoking)
      ∧ ((s.slot i).body.isRevoking = false →
        (l.mode = .exclusive → refused .notShared)
        ∧ (l.mode = .shared →
          (r.activationPending = true → refused .superseding)
          ∧ (r.activationPending = false →
            (r.fenceSpent = true → refused .fenceSpent)
            ∧ (r.fenceSpent = false →
              (r.upgradePending ≠ none → refused .upgradeConflict)
              ∧ (r.upgradePending = none → r.holders ≠ [i] →
                (f.word 6 = 0 ∨ e.waitAllowed = false) → refused .busy))))))

/-- UPGRADE of a sole holder: EXCLUSIVE at once with the next fence, exhaustion after it; of one of several holders:
recorded as pending with its deadline (R65, R66). -/
def Obligations.UpgradeAtOnceOrPending : Prop :=
  ∀ (s : State) (c : Client) (f : Frame) (i : SlotNo) (l : Lease) (d : Option Limit) (e : Fields),
    s.clientAsks Kind.upgrade c f → s.part = .ready → s.handleFor c f i l →
    (s.slot i).body = .active l d → s.entry l.resource = .defined e → l.mode = .shared →
    (s.record l.resource).activationPending = false → (s.record l.resource).fenceSpent = false →
    (s.record l.resource).upgradePending = none →
    ((s.record l.resource).holders = [i] →
      ∃ u : State, exec .upgrade s = .next ((u.exhaust l.resource).clientAnswer Kind.upgrade c f
            { status := .upgraded
              extra := be16 s.epoch ++ be16 ((s.record l.resource).lastSeq + 1) })
        ∧ u = (s.setRecord l.resource
            { s.record l.resource with lastSeq := (s.record l.resource).lastSeq + 1 }).setSlot i
            { generation := (s.slot i).generation
              body := .active
                { l with
                  mode := .exclusive
                  fence := { epoch := s.epoch, seq := (s.record l.resource).lastSeq + 1 } } none })
    ∧ ((s.record l.resource).holders ≠ [i] → f.word 6 ≠ 0 → e.waitAllowed = true →
      exec .upgrade s = .next (((s.setRecord l.resource
          { s.record l.resource with upgradePending := some i }).setSlot i
          { generation := (s.slot i).generation
            body := .active l
              (some (if f.word 6 = 65535 then .indefinite else .ticks (f.word 6))) }).clientAnswer
          Kind.upgrade c f (Reply.bare .queued)))

/-- Sequence 65535 makes the resource fence spent and ends every wait of its queue: the queue is empty, each reserved
slot FREE with its generation advanced, and each entry FREE with WAIT_ENDED, cause FENCE_SPENT, in its port's queue,
or ENDED and owed; below 65535 nothing happens (R29, R51, R52). -/
def Obligations.ExhaustionEndsWaits : Prop :=
  ∀ (s : State) (n : ResNo),
    ((s.record n).lastSeq ≠ 65535 → s.exhaust n = s)
    ∧ ((s.record n).lastSeq = 65535 →
      ((s.exhaust n).record n).fenceSpent = true ∧ ((s.exhaust n).record n).lastSeq = 65535
      ∧ (∀ j ∈ (s.record n).queue, ((s.exhaust n).wait j).queued? = none)
      ∧ (s.exhaust n).entries = s.entries ∧ (s.exhaust n).activations = s.activations
      ∧ (s.exhaust n).array = s.array
      ∧ (leaseLaw s → waitListLaw s →
        let t := s.exhaust n
        (t.record n).queue = []
        ∧ ∀ (j : WaitNo) (w : Wait) (r : Limit) (i : SlotNo), j ∈ (s.record n).queue →
          s.wait j = .queued w r i →
          t.slot i = { generation := (s.slot i).generation + 1, body := .free }
          ∧ ((t.wait j = .free ∧ waitEndedNotice w 0x04#8 ∈ (t.port (.client w.client.port)).queue)
            ∨ (t.wait j = .ended w .fenceSpent ∧ .wait j ∈ (t.side w.client.port).owed))))

/-- CANCEL_UPGRADE clears the pending upgrade of the client's slot, DOWNGRADE makes the lease SHARED with its fence kept;
each runs the grant rule before its OK, and each refusal changes nothing (R71, R73). -/
def Obligations.CancelUpgradeAndDowngrade : Prop :=
  ∀ (s : State) (c : Client) (f : Frame) (i : SlotNo) (l : Lease) (d : Option Limit) (e : Fields),
    s.handleFor c f i l → s.entry l.resource = .defined e →
    (s.clientAsks Kind.cancelUpgrade c f →
      ((s.record l.resource).upgradePending ≠ some i →
        exec .cancelUpgrade s = .next (s.clientAnswer Kind.cancelUpgrade c f (Reply.bare .noUpgrade)))
      ∧ ((s.record l.resource).upgradePending = some i → (s.slot i).body = .active l d →
        exec .cancelUpgrade s = .next ((((s.setRecord l.resource
            { s.record l.resource with upgradePending := none }).setSlot i
            { generation := (s.slot i).generation, body := .active l none }).grantRule
              l.resource).clientAnswer Kind.cancelUpgrade c f (Reply.bare .ok))))
    ∧ (s.clientAsks Kind.downgrade c f →
      let refused : Status → Prop := fun st =>
        exec .downgrade s = .next (s.clientAnswer Kind.downgrade c f (Reply.bare st))
      ((s.slot i).body.isRevoking = true → refused .revoking)
      ∧ ((s.slot i).body = .active l d →
        (l.mode = .shared → refused .notExclusive)
        ∧ (l.mode = .exclusive → e.kind = .exclusiveOnly → refused .modeNotAllowed)
        ∧ (l.mode = .exclusive → e.kind = .shareable →
          exec .downgrade s = .next (((s.setSlot i
              { generation := (s.slot i).generation
                body := .active { l with mode := .shared } d }).grantRule l.resource).clientAnswer
              Kind.downgrade c f { status := .ok, extra := be16 l.fence.epoch ++ be16 l.fence.seq }))))

/-! ### Reads -/

/-- VERIFY: a fence with epoch or sequence 0 is malformed; otherwise the first line of R91 that applies, in SPENT the
epoch alone; nothing but the answer changes (R91, R93). -/
def Obligations.VerifyJudgesFence : Prop :=
  ∀ (s : State) (c : Client) (f : Frame), s.clientAsks Kind.verify c f →
    let answered : Reply → Prop := fun a => exec .verify s = .next (s.clientAnswer Kind.verify c f a)
    let e := f.word 5
    let q := f.word 7
    let n := f.resource
    ((e = 0 ∨ q = 0) → answered (Reply.bare .badRequest))
    ∧ (e ≠ 0 → q ≠ 0 →
      (s.part = .spent → e ≤ s.epoch → answered (Reply.bare .priorEpoch))
      ∧ (s.part = .spent → s.epoch < e → answered (Reply.bare .neverIssued))
      ∧ (s.part = .ready →
        (e < s.epoch → answered (Reply.bare .priorEpoch))
        ∧ (s.epoch < e → answered (Reply.bare .neverIssued))
        ∧ (e = s.epoch → (s.record n).lastSeq < q → answered (Reply.bare .neverIssued))
        ∧ (e = s.epoch → q ≤ (s.record n).lastSeq →
          ((∀ i ∈ (s.record n).holders, (s.slot i).body.live?.map Lease.fence ≠ some ⟨e, q⟩) →
            answered (Reply.bare .stale))
          ∧ (∀ (before after : List SlotNo) (i : SlotNo) (l : Lease),
            (s.record n).holders = before ++ i :: after →
            (∀ k ∈ before, (s.slot k).body.live?.map Lease.fence ≠ some ⟨e, q⟩) →
            (s.slot i).body.live? = some l → l.fence = ⟨e, q⟩ →
            answered { status := .current
                       extra := [l.mode.code, (s.slot i).body.code, l.client.number] }))))

/-- The reads answer OK and change nothing but their answer: QUERY_RESOURCE, QUERY_LEASE, LIST_MINE, STATUS,
READ_LEASE, READ_RESOURCE, READ_QUEUE, READ_WAIT and STORE_READ; a slot above 127, a position 0 or above 48 and a wait
entry above 47 are BAD_REQUEST (R96, R98, R99, R124 to R129, R147, R158). -/
def Obligations.ReadsOnlyAnswer : Prop :=
  ∀ (s : State) (c : Client) (f : Frame),
    (s.clientAsks Kind.queryResource c f →
      exec .queryResource s = .next (s.clientAnswer Kind.queryResource c f
        { status := .ok, extra := s.resourceReport f.resource }))
    ∧ (∀ (i : SlotNo) (l : Lease) (d : Client), s.clientAsks Kind.queryLease c f → s.handleFor d f i l →
      exec .queryLease s = .next (s.clientAnswer Kind.queryLease c f
        { status := .ok
          extra := s.slotSnapshot i ++ [l.client.number] ++ be16 l.granted ++ [byteOf l.renewals] }))
    ∧ (s.clientAsks Kind.listMine c f →
      exec .listMine s = .next (s.clientAnswer Kind.listMine c f
        { status := .ok
          extra := [byteOf (s.leasesOf c).length, byteOf (s.waitsOf c).length]
            ++ (s.leasesOf c).flatMap s.leaseItem ++ (s.waitsOf c).flatMap s.waitItem }))
    ∧ (s.supAsks Kind.status f →
      exec .status s = .next (s.supAnswer Kind.status f { status := .ok, extra := s.summary }))
    ∧ (∀ i : SlotNo, s.supAsks Kind.readLease f → byteAt f 4 = byteOf i.val →
      exec .readLease s = .next (s.supAnswer Kind.readLease f
        { status := .ok, extra := s.slotReport i }))
    ∧ (s.supAsks Kind.readLease f → 128 ≤ (byteAt f 4).toNat →
      exec .readLease s = .next (s.supAnswer Kind.readLease f (Reply.bare .badRequest)))
    ∧ (s.supAsks Kind.readResource f →
      exec .readResource s = .next (s.supAnswer Kind.readResource f
        { status := .ok, extra := s.recordReport f.resource }))
    ∧ (∀ start : Nat, s.supAsks Kind.readQueue f → byteAt f 5 = byteOf start → 1 ≤ start → start ≤ 48 →
      exec .readQueue s = .next (s.supAnswer Kind.readQueue f
        { status := .ok
          extra := [byteOf (s.record f.resource).queue.length, byteOf start,
              byteOf (((s.record f.resource).queue.drop (start - 1)).take 8).length]
            ++ (((s.record f.resource).queue.drop (start - 1)).take 8).flatMap s.queueItem }))
    ∧ (s.supAsks Kind.readQueue f → (byteAt f 5).toNat = 0 ∨ 48 < (byteAt f 5).toNat →
      exec .readQueue s = .next (s.supAnswer Kind.readQueue f (Reply.bare .badRequest)))
    ∧ (∀ j : WaitNo, s.supAsks Kind.readWait f → byteAt f 4 = byteOf j.val →
      exec .readWait s = .next (s.supAnswer Kind.readWait f
        { status := .ok, extra := s.waitReport j }))
    ∧ (s.supAsks Kind.readWait f → 48 ≤ (byteAt f 4).toNat →
      exec .readWait s = .next (s.supAnswer Kind.readWait f (Reply.bare .badRequest)))
    ∧ (s.supAsks Kind.storeRead f → s.pageBusy f.resource = false →
      exec .storeRead s = .next (s.supAnswer Kind.storeRead f
        { status := .ok
          extra := imageOf s.array f.resource ++ [imageCheck (imageOf s.array f.resource)] }))
    ∧ (s.supAsks Kind.storeRead f → s.pageBusy f.resource = true →
      exec .storeRead s = .next (s.supAnswer Kind.storeRead f (Reply.bare .storeBusy)))

/-! ### Ports and purges -/

/-- DETACH and PURGE_CLIENT leave their client no slot and no wait entry in any state, and no owed notice; DETACH
leaves it no queued notice either, and then the port's other owed notices enter while there is room (R114),
PURGE_CLIENT removes none; each answers its four counts, and other clients' leases run on. A port code above 3 or a
tag above 7 in PURGE_CLIENT is BAD_REQUEST (R116, R132; DETACH after a purge, log 29). The count of notices discarded
is the sum the steps give (log 34). -/
def Obligations.DetachAndPurgeLeaveNothing : Prop :=
  ∀ (s : State) (f : Frame) (c : Client), leaseLaw s → owedLaw s →
    let q := s.port (.client c.port)
    let notices := q.queue.filter fun m => m.isNotice && decide (m.tag = byteOf c.tag.val)
    let mine := (s.side c.port).owed.filter fun r => decide (s.refClient r = some c)
    let waits := (s.waitsOf c).length
    let leases := (s.leasesOf c).length
    let nothingLeft : State → Prop := fun u =>
      (∀ i : SlotNo, (u.slot i).body.client? ≠ some c)
        ∧ (∀ j : WaitNo, (u.wait j).info?.map Wait.client ≠ some c)
        ∧ (∀ r ∈ (u.side c.port).owed, u.refClient r ≠ some c)
        ∧ (∀ (i : SlotNo) (l : Lease), (s.slot i).body.live? = some l → l.client ≠ c →
            (u.slot i).generation = (s.slot i).generation
              ∧ ∃ x : Lease, (u.slot i).body.live? = some x ∧ x.client = l.client
                ∧ x.resource = l.resource ∧ x.remaining = l.remaining)
        ∧ u.array = s.array ∧ u.store = s.store ∧ u.epoch = s.epoch ∧ u.prescale = s.prescale
    (s.clientAsks Kind.detach c f →
      ∃ u : State, exec .detach s = .next (u.clientAnswer Kind.detach c f
            { status := .ok
              extra := [byteOf notices.length, byteOf mine.length, byteOf waits, byteOf leases] })
        ∧ nothingLeft u
        ∧ (∀ m ∈ (u.port (.client c.port)).queue, ¬(m.isNotice = true ∧ m.tag = byteOf c.tag.val))
        ∧ ((u.side c.port).owed = [] ∨ (u.port (.client c.port)).room (.client c.port) = false))
    ∧ (s.supAsks Kind.purgeClient f →
      (4 ≤ (byteAt f 4).toNat ∨ 8 ≤ (byteAt f 5).toNat →
        exec .purgeClient s = .next (s.supAnswer Kind.purgeClient f (Reply.bare .badRequest)))
      ∧ (byteAt f 4 = byteOf c.port.code → byteAt f 5 = byteOf c.tag.val →
        let queued := if mine.length = (s.side c.port).owed.length then
            min (waits + leases) (min (12 - q.notices) (16 - q.taken)) else 0
        ∃ (u : State) (ns : List Message), exec .purgeClient s = .next (u.supAnswer Kind.purgeClient f
              { status := .ok
                extra := [byteOf leases, byteOf waits, byteOf queued,
                  byteOf (mine.length + (waits + leases - queued))] })
          ∧ nothingLeft u ∧ (u.port (.client c.port)).queue = q.queue ++ ns))

/-- RESET_PORT empties the port's FIFO, its outbound queue and its owed list, ends every queued wait of its clients
and clears their pending upgrades, under RELEASE ends their leases and under ORPHAN lets them run with nothing owed,
clears OVERRUN and FRAME_ERROR and keeps RESTARTED; its response, with the five counts, is the queue's only entry
(R117, R118). The count of frames discarded may be 4 (log 33). -/
def Obligations.ResetPortClearsPort : Prop :=
  ∀ (s : State) (c : Client) (f : Frame), leaseLaw s → owedLaw s → upgradeLaw s →
    s.clientAsks Kind.resetPort c f →
    let q := s.port (.client c.port)
    let waits := allWaits.filter fun j => decide ((s.wait j).queued?.map (fun w => w.client.port) = some c.port)
    let leases := allSlots.filter fun i =>
      decide ((s.slot i).body.live?.map (fun l => l.client.port) = some c.port)
    let ending := match (s.side c.port).policy with
      | .release => leases.length
      | .orphan => 0
    let a : Reply :=
      { status := .ok
        extra := [byteOf q.fifo.length, byteOf q.queue.length, byteOf (s.side c.port).owed.length,
          byteOf waits.length, byteOf ending] }
    ∃ u : State, exec .resetPort s = .next (u.clientAnswer Kind.resetPort c f a)
      ∧ (u.port (.client c.port)).queue = [] ∧ (u.side c.port).owed = []
      ∧ ((u.clientAnswer Kind.resetPort c f a).port (.client c.port)).queue =
          [responseTo Kind.resetPort ⟨.client c.port, f⟩ a]
      ∧ (u.port (.client c.port)).fifo = []
      ∧ (u.port (.client c.port)).overrun = false ∧ (u.port (.client c.port)).frameError = false
      ∧ (u.port (.client c.port)).restarted = q.restarted
      ∧ (∀ j : WaitNo, (u.wait j).info?.map (fun w => w.client.port) ≠ some c.port)
      ∧ (∀ i : SlotNo, (u.slot i).body.live? = none →
          (u.slot i).body.client?.map Client.port ≠ some c.port)
      ∧ ((s.side c.port).policy = .release →
          ∀ i : SlotNo, (u.slot i).body.client?.map Client.port ≠ some c.port)
      ∧ ((s.side c.port).policy = .orphan →
          ∀ (i : SlotNo) (l : Lease), (s.slot i).body.live? = some l → l.client.port = c.port →
            u.slot i =
              { generation := (s.slot i).generation
                body := match (s.slot i).body with
                  | .revoking l g => .revoking { l with owed := none } g
                  | .free | .reserved _ | .active _ _ | .ended _ _ _ => .active { l with owed := none } none })
      ∧ u.array = s.array ∧ u.store = s.store ∧ u.epoch = s.epoch ∧ u.prescale = s.prescale

/-! ### Revocation, time and activation -/

/-- REVOKE of a lease in ACTIVE: grace 0 ends it REVOKED and runs the grant rule; a grace above 0 makes it REVOKING with
its mode, fence and term kept and REVOKE_NOTICE queued, owed or merged, clears its pending upgrade and then runs the grant
rule where one was cleared. A lease in
REVOKING is answered REVOKING, a handle not accepted STALE_HANDLE; a slot above 127, a selector above 01h, and 01h with a
grace byte that is not 00h are BAD_REQUEST (R85, R111, R113, R130, R158). -/
def Obligations.RevokeByGrace : Prop :=
  (∀ (s : State) (f : Frame), s.supAsks Kind.revoke f →
    128 ≤ (byteAt f 4).toNat ∨ 1 < (byteAt f 6).toNat ∨ (byteAt f 6 = 0x01#8 ∧ byteAt f 7 ≠ 0x00#8) →
    exec .revoke s = .next (s.supAnswer Kind.revoke f (Reply.bare .badRequest)))
  ∧ ∀ (s : State) (f : Frame) (i : SlotNo) (g : Option Nat), s.supAsks Kind.revoke f →
    byteAt f 4 = byteOf i.val → graceOf? (byteAt f 6) (byteAt f 7) = some g →
    let refused : Status → Prop := fun st =>
      exec .revoke s = .next (s.supAnswer Kind.revoke f (Reply.bare st))
    ((s.slot i).generation ≠ byteAt f 5 ∨ (s.slot i).body.live? = none → refused .staleHandle)
    ∧ ((s.slot i).generation = byteAt f 5 → (s.slot i).body.isRevoking = true → refused .revoking)
    ∧ ∀ (l : Lease) (d : Option Limit) (grace : Nat), (s.slot i).generation = byteAt f 5 →
      (s.slot i).body = .active l d → grace = g.getD (s.entry l.resource).fieldsD.grace →
      (grace = 0 → exec .revoke s = .next
        (((s.endLease .revoked i).grantRule l.resource).supAnswer Kind.revoke f (Reply.bare .ok)))
      ∧ (0 < grace → ∃ (u : State) (o : Option Owed),
          u.slot i = { generation := (s.slot i).generation, body := .revoking { l with owed := o } grace }
          ∧ (let p := l.client.port
            (s.canTake p = true → o = l.owed ∧ u.sides = s.sides
              ∧ (u.port (.client p)).queue = (s.port (.client p)).queue ++
                [revokeNotice i (s.slot i).generation l grace])
            ∧ (s.canTake p = false → u.ports = s.ports
              ∧ (l.owed = none → o = some .revokeNotice ∧ (u.side p).owed = (s.side p).owed ++ [.slot i])
              ∧ ∀ old : Owed, l.owed = some old → o = some (old.merge .revokeNotice) ∧ u.sides = s.sides))
          ∧ (u.record l.resource).holders = (s.record l.resource).holders
          ∧ (u.record l.resource).upgradePending ≠ some i
          ∧ ((s.record l.resource).upgradePending = some i →
              exec .revoke s = .next
                ((u.grantRule l.resource).supAnswer Kind.revoke f (Reply.bare .ok)))
          ∧ ((s.record l.resource).upgradePending ≠ some i →
              exec .revoke s = .next (u.supAnswer Kind.revoke f (Reply.bare .ok))))

/-- REVOKE_RESOURCE answers OK with the count of the holders in ACTIVE at its start, all of them revoked in turn by one
grace: none of them is ACTIVE after it, and with a grace above 0 each is REVOKING, its REVOKE_NOTICE queued, owed or
merged; the grant rule runs once, where a lease
or an upgrade was ended; with no holder in ACTIVE nothing changes. A selector above 01h, and 01h with a grace byte that is
not 00h, are BAD_REQUEST (R85, R111, R113, R131, R158). -/
def Obligations.RevokeResourceReachesAll : Prop :=
  (∀ (s : State) (f : Frame), s.supAsks Kind.revokeResource f →
    1 < (byteAt f 5).toNat ∨ (byteAt f 5 = 0x01#8 ∧ byteAt f 6 ≠ 0x00#8) →
    exec .revokeResource s = .next (s.supAnswer Kind.revokeResource f (Reply.bare .badRequest)))
  ∧ ∀ (s : State) (f : Frame) (g : Option Nat), s.supAsks Kind.revokeResource f →
    graceOf? (byteAt f 5) (byteAt f 6) = some g →
    let n := f.resource
    let ls := s.activeHolders n
    let grace := g.getD (s.entry n).fieldsD.grace
    let s1 := s.revokeAll ls grace
    let ended : Prop := (grace = 0 ∧ ls ≠ []) ∨ ∃ i ∈ ls, (s.record n).upgradePending = some i
    let answer : Reply := { status := .ok, extra := [byteOf ls.length] }
    (ended → exec .revokeResource s = .next ((s1.grantRule n).supAnswer Kind.revokeResource f answer))
    ∧ (¬ended → exec .revokeResource s = .next (s1.supAnswer Kind.revokeResource f answer))
    ∧ (ls = [] → s1 = s)
    ∧ ∀ i ∈ ls, (∀ (l : Lease) (d : Option Limit), (s1.slot i).body ≠ .active l d)
      ∧ ∀ (l : Lease) (d : Option Limit), (s.slot i).body = .active l d → 0 < grace →
          ∃ o : Option Owed, (s1.slot i).body = .revoking { l with owed := o } grace
            ∧ s1.toldRevoked i (s.slot i).generation l o grace

/-- SET_TIMEBASE sets prescale and run state and restarts the divider at 0, whatever the values in force; a prescale
outside 1 to 64 or another run state code is BAD_REQUEST (R77). -/
def Obligations.SetTimebaseRestartsDivider : Prop :=
  ∀ (s : State) (f : Frame),
    (s.supMalformed Kind.setTimebase f →
      exec .setTimebase s = .next (s.supAnswer Kind.setTimebase f (Reply.bare .badRequest)))
    ∧ (s.supAsks Kind.setTimebase f →
    (((byteAt f 4).toNat = 0 ∨ 64 < (byteAt f 4).toNat ∨ 1 < (byteAt f 5).toNat) →
      exec .setTimebase s = .next (s.supAnswer Kind.setTimebase f (Reply.bare .badRequest)))
    ∧ (1 ≤ (byteAt f 4).toNat → (byteAt f 4).toNat ≤ 64 → (byteAt f 5).toNat ≤ 1 →
      exec .setTimebase s = .next (State.supAnswer
        { s with
          prescale := (byteAt f 4).toNat
          run := if byteAt f 5 = 0x00#8 then .run else .frozen
          divider := 0 } Kind.setTimebase f (Reply.bare .ok))))

/-- ACTIVATE: STORE_BUSY on a busy page; without holders and waiters the captured image is in force at once; with four
entries LIST_FULL; otherwise the entry is recorded PENDING and a pending upgrade superseded (or, on a repeat, the image and
the flag replaced in their place), with revoke YES every holder in ACTIVE is revoked with the grace of the entry in force,
and the entry is applied at once where no holder is left, and is PENDING otherwise; a revoke flag above 01h is BAD_REQUEST
(R10, R11, R12, R158). -/
def Obligations.ActivateAtOnceOrPending : Prop :=
  (∀ (s : State) (f : Frame), s.supAsks Kind.activate f →
    let n := f.resource
    let r := s.record n
    let image := classify (imageOf s.array n)
    let answered : State → Reply → Prop := fun u a =>
      exec .activate s = .next (u.supAnswer Kind.activate f a)
    (1 < (byteAt f 5).toNat → answered s (Reply.bare .badRequest))
    ∧ ∀ revoke : Bool, flagOf? (byteAt f 5) = some revoke →
      let a : Activation :=
        { resource := n, image := image, crc := crc16 ((imageOf s.array n).take 22), revoke := revoke,
          state := .pending }
      let drains : State → Prop := fun v =>
        let w := if revoke then v.revokeAll (v.activeHolders n) (s.entry n).fieldsD.grace else v
        ((w.record n).holders = [] →
          answered (w.applyNow n image) { status := .activated, extra := [image.code] })
        ∧ ((w.record n).holders ≠ [] → answered w { status := .pending, extra := [image.code] })
      (s.pageBusy n = true → answered s (Reply.bare .storeBusy))
      ∧ (s.pageBusy n = false → r.activationPending = true →
        let replaced := s.setActivations (s.activations.map fun x => if x.pendingFor n then a else x)
        (revoke = false → answered replaced { status := .pending, extra := [image.code] })
        ∧ (revoke = true → drains replaced))
      ∧ (s.pageBusy n = false → r.activationPending = false →
        (r.holders = [] → r.queue = [] →
          answered (s.setEntry n image) { status := .activated, extra := [image.code] })
        ∧ (r.holders ≠ [] ∨ r.queue ≠ [] →
          (4 ≤ s.activations.length → answered s (Reply.bare .listFull))
          ∧ (s.activations.length < 4 →
            drains (((s.setActivations (s.activations ++ [a])).setRecord n
              { r with activationPending := true }).endUpgrade n .superseded)))))
  ∧ (∀ (v : State) (n : ResNo) (grace : Nat), leaseLaw v →
    let w := v.revokeAll (v.activeHolders n) grace
    (grace = 0 → (w.record n).holders = (v.record n).holders.filter fun i => (v.slot i).body.isRevoking)
    ∧ (0 < grace → (w.record n).holders = (v.record n).holders)
    ∧ (∀ i ∈ (v.record n).holders, ∀ (l : Lease) (d : Option Limit), (v.slot i).body = .active l d →
        (grace = 0 → (w.slot i).body.live? = none)
        ∧ (0 < grace → ∃ o : Option Owed, (w.slot i).body = .revoking { l with owed := o } grace
            ∧ w.toldRevoked i (v.slot i).generation l o grace))
    ∧ ∀ (i : SlotNo) (l : Lease) (g : Nat), (v.slot i).body = .revoking l g → w.slot i = v.slot i)
  ∧ ∀ (v : State) (n : ResNo) (image : Entry),
    let t := v.applyNow n image
    t.entry n = image ∧ (t.record n).activationPending = false
      ∧ t.activations = (v.activations.filter fun x => !x.pendingFor n)
      ∧ (t.port .sup).queue = (v.port .sup).queue
      ∧ t = ((((v.setEntry n image).setRecord n
          { v.record n with activationPending := false }).recheck n image).setActivations
          (v.activations.filter fun x => !x.pendingFor n)).serve n

/-- CANCEL_ACTIVATION removes the PENDING entry, clears the mark and runs the grant rule under the old entry; without
one it is NOT_PENDING (R16). -/
def Obligations.CancelActivationRemovesEntry : Prop :=
  ∀ (s : State) (f : Frame),
    (s.supMalformed Kind.cancelActivation f →
      exec .cancelActivation s = .next (s.supAnswer Kind.cancelActivation f (Reply.bare .badRequest)))
    ∧ (s.supAsks Kind.cancelActivation f →
    ((s.activations.any fun a => a.pendingFor f.resource) = false →
      exec .cancelActivation s = .next
        (s.supAnswer Kind.cancelActivation f (Reply.bare .notPending)))
    ∧ ((s.activations.any fun a => a.pendingFor f.resource) = true →
      exec .cancelActivation s = .next ((((s.setActivations
          (s.activations.filter fun a => !a.pendingFor f.resource)).setRecord f.resource
          { s.record f.resource with activationPending := false }).grantRule f.resource).supAnswer
        Kind.cancelActivation f (Reply.bare .ok))))

/-! ### The store -/

/-- STORE_STAGE: with the stage EMPTY each of the seven operations is held when its operands pass; with a command in
it STAGE_FULL; an operation code that names none is BAD_REQUEST by whichever of the seven rows is commanded (that any
row answers it is the model's choice, log 3), and so is a malformed request; with the stage EMPTY it is NOT_PERMITTED
by the part state, BAD_OPERAND or BAD_IMAGE, each with no other change (R137). -/
def Obligations.StageTakesCommand : Prop :=
  (∀ (s : State) (f : Frame) (row : Instr) (code len : Nat),
    (row, code, len) ∈ ([(.storeStageProgramEntry, 1, 28), (.storeStageErasePage, 2, 6),
      (.storeStageEraseDirectory, 3, 5), (.storeStageBlankCheck, 4, 6), (.storeStageScanCrc, 5, 5),
      (.storeStageWriteSettings, 6, 10), (.storeStageInitHeader, 7, 7)] : List (Instr × Nat × Nat)) →
    let k := Kind.storeStage len
    let refused : Status → Prop := fun st => exec row s = .next (s.supAnswer k f (Reply.bare st))
    (s.supMalformed k f → 4 < f.length → byteAt f 4 = byteOf code → refused .badRequest)
    ∧ (s.supAsks k f →
    ((byteAt f 4 = 0x00#8 ∨ 7 < (byteAt f 4).toNat) → refused .badRequest)
    ∧ (byteAt f 4 = byteOf code → s.store.stage ≠ .empty → refused .stageFull)
    ∧ (byteAt f 4 = byteOf code → s.store.stage = .empty → ∀ op : StoreOp,
      (match row with
        | .storeStageProgramEntry => (fieldsOf? ((f.drop 6).take 22)).isSome = true
            ∧ op = .programEntry (resOf (byteAt f 5)) ((f.drop 6).take 22)
        | .storeStageErasePage => ∃ p : PageNo, byteAt f 5 = byteOf p.val ∧ op = .erasePage p
        | .storeStageEraseDirectory => op = .eraseDirectory
        | .storeStageBlankCheck => (byteAt f 5 = 0xFF#8 ∧ op = .blankCheck none)
            ∨ ∃ p : PageNo, byteAt f 5 = byteOf p.val ∧ op = .blankCheck (some p)
        | .storeStageScanCrc => op = .scanCrc
        | .storeStageWriteSettings => s.part = .ready ∧ s.epoch ≠ 65535 ∧ ∃ t : Settings,
            settingsOf? (byteAt f 5) (byteAt f 6) (byteAt f 7) (byteAt f 8) (byteAt f 9) = some t
              ∧ op = .writeSettings t
        | .storeStageInitHeader => s.part ≠ .ready ∧ f.word 5 ≠ 65535 ∧ op = .initHeader (f.word 5)
        | _ => False) →
      exec row s = .next ((s.setStore { s.store with stage := .held op }).supAnswer k f
        (Reply.bare .ok)))))
  ∧ ∀ (s : State) (f : Frame), s.store.stage = .empty →
    let refused : Instr → Nat → Status → Prop := fun row len st =>
      exec row s = .next (s.supAnswer (Kind.storeStage len) f (Reply.bare st))
    (s.supAsks (Kind.storeStage 28) f → byteAt f 4 = 0x01#8 →
      fieldsOf? ((f.drop 6).take 22) = none → refused .storeStageProgramEntry 28 .badImage)
    ∧ (s.supAsks (Kind.storeStage 6) f → byteAt f 4 = 0x02#8 → 16 ≤ (byteAt f 5).toNat →
      refused .storeStageErasePage 6 .badOperand)
    ∧ (s.supAsks (Kind.storeStage 6) f → byteAt f 4 = 0x04#8 → 16 ≤ (byteAt f 5).toNat →
      byteAt f 5 ≠ 0xFF#8 → refused .storeStageBlankCheck 6 .badOperand)
    ∧ (s.supAsks (Kind.storeStage 10) f → byteAt f 4 = 0x06#8 →
      (s.part = .spent ∨ s.part = .faulted ∨ (s.part = .ready ∧ s.epoch = 65535) →
        refused .storeStageWriteSettings 10 .notPermitted)
      ∧ (s.part = .ready → s.epoch ≠ 65535 →
        settingsOf? (byteAt f 5) (byteAt f 6) (byteAt f 7) (byteAt f 8) (byteAt f 9) = none →
        refused .storeStageWriteSettings 10 .badOperand))
    ∧ (s.supAsks (Kind.storeStage 7) f → byteAt f 4 = 0x07#8 →
      (s.part = .ready → refused .storeStageInitHeader 7 .notPermitted)
      ∧ (s.part ≠ .ready → f.word 5 = 65535 → refused .storeStageInitHeader 7 .badOperand))

/-- STORE_LAUNCH by its ordered checks (R138). STORE_DISCARD removes a HELD command and nothing else; EMPTY is
NOTHING_STAGED and LAUNCHED is STAGE_LAUNCHED, with nothing changed (R139). -/
def Obligations.LaunchAndDiscard : Prop :=
  ∀ (s : State) (f : Frame),
    (s.supMalformed Kind.storeLaunch f →
      exec .storeLaunch s = .next (s.supAnswer Kind.storeLaunch f (Reply.bare .badRequest)))
    ∧ (s.supAsks Kind.storeLaunch f →
      let answered : Store → Reply → Prop := fun x a =>
        exec .storeLaunch s = .next ((s.setStore x).supAnswer Kind.storeLaunch f a)
      (s.store.fault ≠ none → answered s.store (Reply.bare .storeFaulted))
      ∧ (s.store.fault = none →
        (s.store.stage = .empty → answered s.store (Reply.bare .nothingStaged))
        ∧ (∀ op, s.store.stage = .launched op → answered s.store (Reply.bare .stageLaunched))
        ∧ (∀ op, s.store.stage = .held op →
          (s.store.running = none → s.store.held = [] →
            answered { s.store with running := some op, stage := .empty }
              { status := .ok, extra := [0x01#8] })
          ∧ (s.store.running ≠ none ∨ s.store.held ≠ [] →
            answered { s.store with stage := .launched op } { status := .ok, extra := [0x02#8] }))))
    ∧ (s.supMalformed Kind.storeDiscard f →
      exec .storeDiscard s = .next (s.supAnswer Kind.storeDiscard f (Reply.bare .badRequest)))
    ∧ (s.supAsks Kind.storeDiscard f →
      (s.store.stage = .empty → exec .storeDiscard s = .next
        (s.supAnswer Kind.storeDiscard f (Reply.bare .nothingStaged)))
      ∧ (∀ op, s.store.stage = .launched op → exec .storeDiscard s = .next
        (s.supAnswer Kind.storeDiscard f (Reply.bare .stageLaunched)))
      ∧ (∀ op, s.store.stage = .held op → exec .storeDiscard s = .next
        ((s.setStore { s.store with stage := .empty }).supAnswer Kind.storeDiscard f (Reply.bare .ok))))

/-- STORE_CLEAR clears the fault, whether or not one was set, and changes nothing else; malformed it is BAD_REQUEST
(R140). -/
def Obligations.ClearChangesFaultAlone : Prop :=
  ∀ (s : State) (f : Frame),
    (s.supMalformed Kind.storeClear f →
      exec .storeClear s = .next (s.supAnswer Kind.storeClear f (Reply.bare .badRequest)))
    ∧ (s.supAsks Kind.storeClear f → exec .storeClear s = .next
      ((s.setStore { s.store with fault := none }).supAnswer Kind.storeClear f (Reply.bare .ok)))

/-- The completion of a PROGRAM_ENTRY, ERASE_PAGE or ERASE_DIRECTORY, whatever the array physically does: the store is
IDLE, the fault says whether the read-back was right, and every byte outside the entry, the page or the directory is as
before; going as intended, the image or the erased bytes stand there; a PROGRAM_ENTRY on an entry that is not blank is
NOT_BLANK and changes no byte (R141, R142, R143). -/
def Obligations.OperationsChangeTheirBytes : Prop :=
  ∀ (s : State) (phys : Quirks), s.serving = true → Memory.wf s.array → s.store.fault = none →
    s.store.stage = .empty →
    (∀ (n : ResNo) (image : List Byte), s.store.running = some (.programEntry n image) →
      image.length = 22 →
      ∃ t, exec (.programEntryComplete phys) s = .next t ∧ t.store.running = none
        ∧ (blank (imageOf s.array n) = false → t.store.fault = some .notBlank ∧ t.array = s.array)
        ∧ (blank (imageOf s.array n) = true →
          (imageOf t.array n = image ++ crc16Bytes image → t.store.fault = none)
          ∧ (imageOf t.array n ≠ image ++ crc16Bytes image → t.store.fault = some .verifyFailed)
          ∧ (phys = [] → imageOf t.array n = image ++ crc16Bytes image))
        ∧ ∀ a : Nat, (a < 24 * n.val ∨ 24 * n.val + 24 ≤ a) →
            Memory.read t.array a = Memory.read s.array a)
    ∧ (∀ p : PageNo, s.store.running = some (.erasePage p) →
      ∃ t, exec (.erasePageComplete phys) s = .next t ∧ t.store.running = none
        ∧ ((∀ n : ResNo, n.val / 16 = p.val → blank (imageOf t.array n) = true) → t.store.fault = none)
        ∧ ((∃ n : ResNo, n.val / 16 = p.val ∧ blank (imageOf t.array n) = false) →
            t.store.fault = some .eraseFailed)
        ∧ (∀ a : Nat, (a < 384 * p.val ∨ 384 * p.val + 384 ≤ a) →
            Memory.read t.array a = Memory.read s.array a)
        ∧ (phys = [] → ∀ a : Nat, 384 * p.val ≤ a → a < 384 * p.val + 384 →
            Memory.read t.array a = 0xFF#8))
    ∧ (s.store.running = some .eraseDirectory →
      ∃ t, exec (.eraseDirectoryComplete phys) s = .next t ∧ t.store.running = none
        ∧ ((∀ n : ResNo, blank (imageOf t.array n) = true) → t.store.fault = none)
        ∧ ((∃ n : ResNo, blank (imageOf t.array n) = false) → t.store.fault = some .eraseFailed)
        ∧ (∀ a : Nat, 6144 ≤ a → Memory.read t.array a = Memory.read s.array a)
        ∧ (phys = [] → ∀ a : Nat, a < 6144 → Memory.read t.array a = 0xFF#8))

/-- The completion of BLANK_CHECK and SCAN_CRC changes no byte and has outcome OK, with the lowest entry not blank, or the
three counts and the lowest DAMAGED entry (as result bytes, log 16). WRITE_SETTINGS going as intended makes the written
page active with the current epoch as its base and no marks, and no other page valid; failing at its step 1 or 2 it leaves
the old page active as it was, and failing at step 3 both pages valid and the new one active. INIT_HEADER going as intended
leaves one valid page with the base asked for; failing, it is HEADER_FAILED with the step, and the active page stays.
Neither changes a byte of the directory (R144, R145, R146; log 6, log 21, log 30). -/
def Obligations.ChecksAndSettingsComplete : Prop :=
  (∀ n p, n ∈ checkedEntries none ∧ (n ∈ checkedEntries (some p) ↔ n.val / 16 = p.val))
  ∧ ∀ s : State, s.serving = true →
    (∀ p : Option PageNo, s.store.running = some (.blankCheck p) →
      ((∀ n ∈ checkedEntries p, blank (imageOf s.array n) = true) →
        exec .blankCheckComplete s = .next (s.finishOp (.blankCheck p) none [0x00#8]))
      ∧ ∀ n ∈ checkedEntries p, blank (imageOf s.array n) = false →
        (∀ k ∈ checkedEntries p, k < n → blank (imageOf s.array k) = true) →
        exec .blankCheckComplete s = .next (s.finishOp (.blankCheck p) none [0x01#8, byteOf n.val]))
    ∧ (s.store.running = some .scanCrc →
      let count : Byte → List Byte := fun code =>
        be16 (allResources.countP fun n => (classify (imageOf s.array n)).code == code)
      let counts := count 0x01#8 ++ count 0x00#8 ++ count 0x02#8
      ((∀ n : ResNo, classify (imageOf s.array n) ≠ .damaged) →
        exec .scanCrcComplete s = .next (s.finishOp .scanCrc none (counts ++ [0x00#8])))
      ∧ ∀ n : ResNo, classify (imageOf s.array n) = .damaged →
        (∀ k < n, classify (imageOf s.array k) ≠ .damaged) →
        exec .scanCrcComplete s = .next (s.finishOp .scanCrc none (counts ++ [0x01#8, byteOf n.val])))
    ∧ (∀ (x : Settings) (h : HPage) (phys : Quirks), s.store.running = some (.writeSettings x) →
      Memory.wf s.array → s.part = .ready → s.active = some h → validPage s.array h = true →
      s.epoch < 65535 → 1 ≤ x.prescale → x.prescale ≤ 64 →
      let w := s.runWriteSettings x phys
      let failed := (runPlan (s.planOf (.writeSettings x)) phys s.array).failed
      exec (.writeSettingsComplete phys) s = .next
        (State.finishOp { s with array := w.array, active := w.active } (.writeSettings x) w.fault w.result)
      ∧ (phys = [] → failed = none)
      ∧ (∀ a : Nat, a < 6144 → Memory.read w.array a = Memory.read s.array a)
      ∧ (failed = none → w.fault = none ∧ w.result = h.other.code :: be16 s.epoch
        ∧ w.active = some h.other ∧ validPage w.array h.other = true ∧ validPage w.array h = false
        ∧ headerBase (headerOf w.array h.other) = s.epoch ∧ marksUsed (headerOf w.array h.other) = 0
        ∧ headerSettings? (headerOf w.array h.other) = some x)
      ∧ ∀ k : Nat, failed = some k → (k = 1 ∨ k = 2 ∨ k = 3) ∧ w.fault = some .headerFailed
        ∧ w.result = [byteOf k]
        ∧ (k ≠ 3 → w.active = some h ∧ headerOf w.array h = headerOf s.array h)
        ∧ (k = 2 → validPage w.array h.other = false)
        ∧ (k = 3 → w.active = some h.other ∧ validPage w.array h = true
          ∧ validPage w.array h.other = true ∧ headerBase (headerOf w.array h.other) = s.epoch
          ∧ marksUsed (headerOf w.array h.other) = 0
          ∧ headerSettings? (headerOf w.array h.other) = some x))
    ∧ (∀ (base : Nat) (h : HPage) (x : Settings), Memory.wf s.array → base < 65535 →
      (s.part = .faulted ∧ h = .h1 ∧ x = Settings.defaults
        ∨ s.part = .spent ∧ s.active = some h ∧ headerSettings? (headerOf s.array h) = some x) →
      (s.runInitHeader base []).fault = none
        ∧ validPage (s.runInitHeader base []).array h.other = true
        ∧ validPage (s.runInitHeader base []).array h = false
        ∧ headerBase (headerOf (s.runInitHeader base []).array h.other) = base
        ∧ marksUsed (headerOf (s.runInitHeader base []).array h.other) = 0
        ∧ headerSettings? (headerOf (s.runInitHeader base []).array h.other) = some x)
    ∧ (∀ (base : Nat) (phys : Quirks), Memory.wf s.array → ∀ a : Nat, a < 6144 →
      Memory.read (s.runInitHeader base phys).array a = Memory.read s.array a)
    ∧ (∀ (base : Nat) (phys : Quirks) (fault : StoreFault),
      s.store.running = some (.initHeader base) → (s.runInitHeader base phys).fault = some fault →
      fault = .headerFailed ∧ ∃ k : Nat, (k = 1 ∨ k = 2 ∨ k = 3)
        ∧ (runPlan (s.planOf (.initHeader base)) phys s.array).failed = some k
        ∧ exec (.initHeaderComplete phys) s = .next (State.finishOp
            { s with array := (s.runInitHeader base phys).array } (.initHeader base) (some .headerFailed)
            [byteOf k]))

/-- A completion makes the store IDLE and raises STORE_DONE. With a fault it sets it and drops a LAUNCHED command with
STORE_SKIPPED after the STORE_DONE; without one the LAUNCHED command starts where the STORE_DONE has entered the queue, and
stays LAUNCHED where it is held. Each notice enters port S's queue where none is held and there is room, and is held, in
its order, otherwise. The completions of the operations on the directory end in this event with their results, an OK erase
with none; a LAUNCHED command also starts by itself once the store is ready (R141, R142, R143; results, log 16; the moment
of the array's change, log 30; LAUNCHED_COMMAND_START as an event of its own, which does nothing elsewhere, log 12). -/
def Obligations.CompletionStopsOrGoesOn : Prop :=
  (∀ (s : State) (phys : Quirks), s.serving = true →
    (∀ (n : ResNo) (image : List Byte), s.store.running = some (.programEntry n image) →
      let r := s.runProgramEntry n image phys
      exec (.programEntryComplete phys) s = .next (State.finishOp { s with array := r.array }
        (.programEntry n image) r.fault [0x01#8, byteOf n.val]))
    ∧ (∀ p : PageNo, s.store.running = some (.erasePage p) →
      let r := s.runErase (.erasePage p) (entriesOn p) phys
      exec (.erasePageComplete phys) s = .next (State.finishOp { s with array := r.array }
          (.erasePage p) r.fault r.result)
        ∧ (r.fault = none → r.result = [])
        ∧ ∀ n : ResNo, n.val / 16 = p.val → blank (imageOf r.array n) = false →
          (∀ k : ResNo, k.val / 16 = p.val → k < n → blank (imageOf r.array k) = true) →
          r.fault = some .eraseFailed ∧ r.result = [0x01#8, byteOf n.val])
    ∧ (s.store.running = some .eraseDirectory →
      let r := s.runErase .eraseDirectory allResources phys
      exec (.eraseDirectoryComplete phys) s = .next (State.finishOp { s with array := r.array }
          .eraseDirectory r.fault r.result)
        ∧ (r.fault = none → r.result = [])
        ∧ ∀ n : ResNo, blank (imageOf r.array n) = false →
          (∀ k < n, blank (imageOf r.array k) = true) →
          r.fault = some .eraseFailed ∧ r.result = [0x01#8, byteOf n.val]))
  ∧ (∀ (s : State) (op : StoreOp) (fault : StoreFault) (result : List Byte),
    let t := s.finishOp op (some fault) result
    let skipped : List Message := match s.store.stage with
      | .launched x => [storeSkipped x]
      | .empty | .held _ => []
    let raised := storeDone op (some fault) result :: skipped
    let sup := s.port .sup
    t.store.running = none ∧ t.store.fault = some fault
      ∧ t.store.stage = (match s.store.stage with
          | .launched _ => .empty
          | .empty => .empty
          | .held x => .held x)
      ∧ (s.heldNotices ≠ 0 ∨ s.supRoom = false →
          t.store.held = s.store.held ++ raised ∧ t.ports = s.ports)
      ∧ (s.heldNotices = 0 → s.supRoom = true →
          (sup.notices + 1 < 6 ∧ sup.taken + 1 < 8 ∨ skipped = [] →
            (t.port .sup).queue = sup.queue ++ raised ∧ t.store.held = [])
          ∧ (¬(sup.notices + 1 < 6 ∧ sup.taken + 1 < 8) →
            (t.port .sup).queue = sup.queue ++ [storeDone op (some fault) result]
              ∧ t.store.held = skipped)))
  ∧ (∀ (s : State) (op : StoreOp) (result : List Byte), s.store.fault = none →
    let t := s.finishOp op none result
    let done := storeDone op none result
    t.store.fault = none
      ∧ (s.heldNotices = 0 → s.supRoom = true →
          (t.port .sup).queue = (s.port .sup).queue ++ [done] ∧ t.store.held = []
            ∧ (∀ x : StoreOp, s.store.stage = .launched x →
                t.store.running = some x ∧ t.store.stage = .empty)
            ∧ ((∀ x : StoreOp, s.store.stage ≠ .launched x) →
                t.store.running = none ∧ t.store.stage = s.store.stage))
      ∧ (s.heldNotices ≠ 0 ∨ s.supRoom = false →
          t = s.setStore { s.store with running := none, held := s.store.held ++ [done] }))
  ∧ ∀ (s : State) (x : StoreOp), s.serving = true → s.store.stage = .launched x →
    (s.store.running = none → s.store.held = [] → s.store.fault = none →
      exec .launchedCommandStart s =
        .next (s.setStore { s.store with running := some x, stage := .empty }))
    ∧ (s.store.running ≠ none ∨ s.store.held ≠ [] ∨ s.store.fault ≠ none →
      exec .launchedCommandStart s = .next s)

/-! ### Time -/

/-- While RUN, TICK counts periods in the divider and makes a tick due at each of the three for every 4096 times prescale
periods completed; FROZEN and STARTING count nothing (R75, R76; the operand is the model's, log 10). -/
def Obligations.TickCountsPeriods : Prop :=
  ∀ (s : State) (periods : Nat),
    (s.serving = true → s.run = .run →
      exec (.tick periods) s = .next
        { s with
          divider := (s.divider + periods) % (4096 * s.prescale)
          leaseTicks := s.leaseTicks + (s.divider + periods) / (4096 * s.prescale)
          waitTicks := s.waitTicks + (s.divider + periods) / (4096 * s.prescale)
          upgradeTicks := s.upgradeTicks + (s.divider + periods) / (4096 * s.prescale) })
    ∧ (s.run = .frozen ∨ s.part = .starting → exec (.tick periods) s = .next s)

/-- The lease table's tick: every ACTIVE and REVOKING slot loses 1 of its term and a REVOKING one 1 of its grace; then each
slot that reached 0 ends, REVOKED where its grace is 0 and EXPIRED otherwise, FREE with LEASE_ENDED queued or ENDED owing
it, and a due ACTIVE one is warned; then the grant rules run at the resources of the ended leases (R79, R80, R81, R88). The
wait pool's tick: every finite wait loses 1; every wait at 0 ends TIMEOUT with WAIT_ENDED queued or owed, before the grant
rule runs once for each (R49). The pending upgrades' tick: every finite deadline loses 1; every upgrade at 0 ends with
UPGRADE_ENDED queued or owed, before the grant rules (R67, R69). While FROZEN, and where no tick is due, nothing happens
(R75, R78). Ticks that are due are the model's (log 10), and so is the order among ends of one tick (log 11). -/
def Obligations.TableTicksSubtractThenEnd : Prop :=
  (∀ (s : State) (ws : List WaitNo) (ns : List ResNo),
    (s.run = .frozen ∨ s.leaseTicks = 0 → exec .leaseTableTick s = .next s)
    ∧ (s.run = .frozen ∨ s.waitTicks = 0 → exec (.waitPoolTick ws) s = .next s)
    ∧ (s.run = .frozen ∨ s.upgradeTicks = 0 → exec (.pendingUpgradesTick ns) s = .next s))
  ∧ (∀ s : State, s.serving = true → s.run = .run → 0 < s.leaseTicks →
    let s0 : State := { s with leaseTicks := s.leaseTicks - 1 }
    let s1 := s0.tickSlots
    let s2 := allSlots.foldl (fun t i => t.tickSlot i) s1
    exec .leaseTableTick s = .next (s2.grantRules s1.tickEnded)
    ∧ s1 = { s0 with slots := s1.slots }
    ∧ (∀ i : SlotNo, s1.slot i =
        { generation := (s.slot i).generation
          body := match (s.slot i).body with
            | .active l d => .active { l with remaining := l.remaining - 1 } d
            | .revoking l g => .revoking { l with remaining := l.remaining - 1 } (g - 1)
            | .free => .free
            | .reserved r => .reserved r
            | .ended l g c => .ended l g c })
    ∧ (∀ n : ResNo, n ∈ s1.tickEnded ↔ ∃ (i : SlotNo) (l : Lease), (s1.slot i).body.live? = some l
        ∧ l.resource = n ∧ (l.remaining = 0 ∨ (s1.slot i).body.grace? = some 0))
    ∧ (∀ (i : SlotNo) (l : Lease), (s1.slot i).body.live? = some l →
        let g := (s1.slot i).body.grace?
        let queue := (s2.port (.client l.client.port)).queue
        (l.remaining = 0 ∨ g = some 0 →
          let cause : EndCause := if g = some 0 then .revoked else .expired
          (s2.slot i = { generation := (s.slot i).generation + 1, body := .free }
              ∧ leaseEndedNotice i (s.slot i).generation l g cause.code ∈ queue)
            ∨ (s2.slot i = { generation := (s.slot i).generation
                             body := .ended { l with owed := some .leaseEnded } g cause }
              ∧ (l.owed = none → .slot i ∈ (s2.side l.client.port).owed)))
        ∧ (0 < l.remaining → ∀ k : Nat, g = some (k + 1) → s2.slot i = s1.slot i)
        ∧ (0 < l.remaining → ∀ d : Option Limit, (s1.slot i).body = .active l d →
          let lead := (s.entry l.resource).fieldsD.warnLead
          (lead = 0 ∨ lead < l.remaining ∨ l.warned = true → s2.slot i = s1.slot i)
          ∧ (0 < lead → l.remaining ≤ lead → l.warned = false → ∃ o : Option Owed,
            s2.slot i = { generation := (s.slot i).generation
                          body := .active { l with warned := true, owed := o } d }
            ∧ ((o = l.owed ∧ ∃ m ∈ queue, m.code = 0xC4#8 ∧ m.tag = byteOf l.client.tag.val)
              ∨ (l.owed = none ∧ o = some .expiryWarning ∧ .slot i ∈ (s2.side l.client.port).owed)
              ∨ (l.owed ≠ none ∧ o = l.owed))))))
  ∧ (∀ (s : State) (ws : List WaitNo), s.serving = true → s.run = .run → 0 < s.waitTicks →
    let s0 : State := { s with waitTicks := s.waitTicks - 1 }
    let s1 := s0.tickWaits
    let ended := s1.timeoutResources (s1.timeouts ws)
    let s2 := s1.endTimeouts ended
    exec (.waitPoolTick ws) s = .next (s2.grantRules ended)
    ∧ s1 = { s0 with waits := s1.waits }
    ∧ (∀ j : WaitNo, s1.wait j = match s.wait j with
        | .queued w (.ticks k) i => .queued w (.ticks (k - 1)) i
        | .queued w .indefinite i => .queued w .indefinite i
        | .free => .free
        | .ended w c => .ended w c)
    ∧ ((∀ (j : WaitNo) (w : Wait) (i : SlotNo), s1.wait j ≠ .queued w (.ticks 0) i) →
        exec (.waitPoolTick ws) s = .next s1)
    ∧ (leaseLaw s → waitListLaw s → ws.Nodup →
      (∀ n : ResNo, ended.count n = (allWaits.filter fun j =>
          decide ((s1.wait j).queued?.map Wait.resource = some n) && (s1.wait j).timedOut).length)
      ∧ ∀ j : WaitNo,
        ((s1.wait j).timedOut = false → s2.wait j = s1.wait j)
        ∧ ∀ (w : Wait) (i : SlotNo), s1.wait j = .queued w (.ticks 0) i →
          j ∉ (s2.record w.resource).queue
            ∧ s2.slot i = { generation := (s.slot i).generation + 1, body := .free }
            ∧ ((s2.wait j = .free
                  ∧ waitEndedNotice w 0x01#8 ∈ (s2.port (.client w.client.port)).queue)
              ∨ (s2.wait j = .ended w .timeout ∧ .wait j ∈ (s2.side w.client.port).owed))))
  ∧ ∀ (s : State) (us : List ResNo), s.serving = true → s.run = .run → 0 < s.upgradeTicks →
    let s0 : State := { s with upgradeTicks := s.upgradeTicks - 1 }
    let s1 := s0.tickDeadlines
    let ended := s1.upgradeTimeouts us
    let s2 := ended.foldl (fun t n => t.endUpgrade n .timeout) s1
    exec (.pendingUpgradesTick us) s = .next (s2.grantRules ended)
    ∧ s1 = { s0 with slots := s1.slots }
    ∧ (∀ i : SlotNo, s1.slot i =
        { generation := (s.slot i).generation
          body := match (s.slot i).body with
            | .active l (some (.ticks k)) => .active l (some (.ticks (k - 1)))
            | .active l (some .indefinite) => .active l (some .indefinite)
            | .active l none => .active l none
            | .free => .free
            | .reserved r => .reserved r
            | .revoking l g => .revoking l g
            | .ended l g c => .ended l g c })
    ∧ (∀ n : ResNo, n ∈ ended ↔ ∃ (i : SlotNo) (l : Lease), (s.record n).upgradePending = some i
        ∧ (s1.slot i).body = .active l (some (.ticks 0)))
    ∧ (us.Nodup → ended.Nodup)
    ∧ ((∀ (i : SlotNo) (l : Lease), (s1.slot i).body ≠ .active l (some (.ticks 0))) →
        exec (.pendingUpgradesTick us) s = .next s1)
    ∧ (leaseLaw s → upgradeLaw s → us.Nodup →
      (∀ n : ResNo, n ∉ ended → s2.record n = s.record n)
      ∧ ∀ (n : ResNo) (i : SlotNo) (l : Lease), n ∈ ended → (s.record n).upgradePending = some i →
        (s1.slot i).body = .active l (some (.ticks 0)) →
        s2.record n = { s.record n with upgradePending := none }
        ∧ ∃ o : Option Owed,
          s2.slot i = { generation := (s.slot i).generation, body := .active { l with owed := o } none }
          ∧ ((o = l.owed ∧ ∃ m ∈ (s2.port (.client l.client.port)).queue,
                m.code = 0xC3#8 ∧ m.status = 0x01#8 ∧ m.tag = byteOf l.client.tag.val)
            ∨ (l.owed = none ∧ o = some (.upgradeEnded .timeout)
                ∧ .slot i ∈ (s2.side l.client.port).owed)
            ∨ ∃ old : Owed, l.owed = some old ∧ o = some (old.merge (.upgradeEnded .timeout))))

/-- A lease at term 0 ends EXPIRED, one at grace 0 ends REVOKED: the slot leaves the holder list, and becomes FREE with
LEASE_ENDED queued where the port can take a notice and the slot owes none, or ENDED owing it, its place in the owed list
kept. A wait at 0 ends TIMEOUT: it leaves its queue, its slot becomes FREE, and the entry becomes FREE with WAIT_ENDED queued
or ENDED owing it. A pending upgrade at 0 is cleared, with UPGRADE_ENDED queued or owed. The grant rule follows each (R81,
R88, R32, R33, R50, R51, R52, R69, R111); while FROZEN none of them happens (R78). Each is the event of a tick as a row of
its own (log 12). -/
def Obligations.EndsAtZero : Prop :=
  (∀ (s : State) (i : SlotNo) (j : WaitNo) (n : ResNo), s.run = .frozen →
    exec (.leaseExpiry i) s = .next s ∧ exec (.graceEnd i) s = .next s
      ∧ exec (.waitTimeout j) s = .next s ∧ exec (.upgradeTimeout n) s = .next s)
  ∧ ∀ s : State, s.serving = true → s.run = .run →
    (∀ (i : SlotNo) (l : Lease),
      (∀ d : Option Limit, (s.slot i).body = .active l d → l.remaining = 0 →
        exec (.leaseExpiry i) s = .next ((s.endLease .expired i).grantRule l.resource))
      ∧ (∀ g : Nat, (s.slot i).body = .revoking l g → 0 < g → l.remaining = 0 →
        exec (.leaseExpiry i) s = .next ((s.endLease .expired i).grantRule l.resource))
      ∧ ((s.slot i).body = .revoking l 0 →
        exec (.graceEnd i) s = .next ((s.endLease .revoked i).grantRule l.resource))
      ∧ ∀ cause : EndCause, (s.slot i).body.live? = some l →
        let t := s.endLease cause i
        let p := l.client.port
        let grace := (s.slot i).body.grace?
        (t.record l.resource).holders = (s.record l.resource).holders.erase i
        ∧ (t.record l.resource).upgradePending ≠ some i
        ∧ (l.owed = none → s.canTake p = true →
            t.slot i = { generation := (s.slot i).generation + 1, body := .free }
            ∧ (t.port (.client p)).queue = (s.port (.client p)).queue
                ++ [leaseEndedNotice i (s.slot i).generation l grace cause.code])
        ∧ (l.owed ≠ none ∨ s.canTake p = false →
            t.slot i = { generation := (s.slot i).generation
                         body := .ended { l with owed := some .leaseEnded } grace cause }
            ∧ t.ports = s.ports
            ∧ (t.side p).owed =
                if l.owed = none then (s.side p).owed ++ [.slot i] else (s.side p).owed))
    ∧ (∀ (j : WaitNo) (w : Wait) (i : SlotNo), s.wait j = .queued w (.ticks 0) i →
      let u := s.endWait .timeout j
      let p := w.client.port
      exec (.waitTimeout j) s = .next (u.grantRule w.resource)
      ∧ (u.record w.resource).queue = (s.record w.resource).queue.erase j
      ∧ u.slot i = { generation := (s.slot i).generation + 1, body := .free }
      ∧ (s.canTake p = true → u.wait j = .free ∧ u.sides = s.sides
          ∧ (u.port (.client p)).queue = (s.port (.client p)).queue ++ [waitEndedNotice w 0x01#8])
      ∧ (s.canTake p = false → u.wait j = .ended w .timeout ∧ u.ports = s.ports
          ∧ (u.side p).owed = (s.side p).owed ++ [.wait j]))
    ∧ (∀ (n : ResNo) (i : SlotNo) (l : Lease), leaseLaw s → upgradeLaw s →
      (s.record n).upgradePending = some i → (s.slot i).body = .active l (some (.ticks 0)) →
      let u := s.endUpgrade n .timeout
      let p := l.client.port
      let gen := (s.slot i).generation
      exec (.upgradeTimeout n) s = .next (u.grantRule n)
      ∧ u.record n = { s.record n with upgradePending := none }
      ∧ (s.canTake p = true →
          u.slot i = { generation := gen, body := .active l none } ∧ u.sides = s.sides
          ∧ (u.port (.client p)).queue = (s.port (.client p)).queue ++
            [{ isNotice := true, code := 0xC3#8, tag := byteOf l.client.tag.val, rid := 0x00#8,
               status := 0x01#8, body := snapshot i gen l 0x02#8 none false }])
      ∧ (s.canTake p = false → u.ports = s.ports
          ∧ (l.owed = none →
            u.slot i =
              { generation := gen, body := .active { l with owed := some (.upgradeEnded .timeout) } none }
            ∧ (u.side p).owed = (s.side p).owed ++ [.slot i])
          ∧ ∀ old : Owed, l.owed = some old →
            u.slot i =
              { generation := gen
                body := .active { l with owed := some (old.merge (.upgradeEnded .timeout)) } none }
            ∧ u.sides = s.sides))

/-! ### The grant rule, notices -/

/-- The grant rule, in its order (R59). Marked, a resource grants nothing while it has a holder; without one its PENDING
activation is applied: the image is in force, the mark NO, the waits that are inadmissible under it end WITHDRAWN or
REFUSED with WAIT_ENDED queued or owed, the others keep their order, the rule runs under the new entry, and ACTIVATED is
queued or held (R14, R15). Unmarked, a pending upgrade of the only holder is granted: EXCLUSIVE with the next fence,
UPGRADED queued or owed, and nothing after it (R68). Otherwise a grantable head is granted, its slot ACTIVE with the next
fence and the term of the entry in force, its entry FREE, GRANTED queued or owed, and the rule goes on with the next head
(R60); it stops at a head that is not grantable. The rows GRANT_FROM_QUEUE, UPGRADE_GRANT and ACTIVATION_APPLICATION are
its parts as events of their own (log 12). -/
def Obligations.GrantRuleInOrder : Prop :=
  ∀ (s : State) (n : ResNo), s.serving = true → leaseLaw s → waitListLaw s → upgradeLaw s → activationLaw s →
    let r := s.record n
    (∀ (j : WaitNo) (rest : List WaitNo) (w : Wait) (lim : Limit) (i : SlotNo),
      let t := s.grantRule n
      (t.record n).queue = j :: rest → t.wait j = .queued w lim i → t.grantable n w.mode = false)
    ∧ (r.activationPending = true →
      exec (.grantFromQueue n) s = .next s ∧ exec (.upgradeGrant n) s = .next s
      ∧ (r.holders ≠ [] → s.grantRule n = s ∧ exec (.activationApplication n) s = .next s)
      ∧ (r.holders = [] → ∃ a : Activation, s.pendingEntry n = some a
        ∧ exec (.activationApplication n) s = .next (s.grantRule n)
        ∧ (let t := s.grantRule n
          let s1 := ((s.setEntry n a.image).setRecord n { r with activationPending := false }).recheck n a.image
          let ends : WaitNo → Option WaitCause := fun j => (s.wait j).queued?.bind fun w =>
            match a.image with
            | .undefined | .damaged => some .withdrawn
            | .defined e =>
              if e.admits w.client.port = false ∨ (w.mode = .shared ∧ e.kind = .exclusiveOnly) then
                some .refused
              else none
          let count := (r.queue.filter fun j => (ends j).isSome).length
          t.entry n = a.image ∧ (t.record n).activationPending = false
          ∧ (s1.record n).queue = (r.queue.filter fun j => (ends j).isNone)
          ∧ (∀ j : WaitNo, j ∉ r.queue ∨ ends j = none → s1.wait j = s.wait j)
          ∧ (∀ (j : WaitNo) (w : Wait) (lim : Limit) (i : SlotNo) (c : WaitCause), j ∈ r.queue →
              s.wait j = .queued w lim i → ends j = some c →
              s1.slot i = { generation := (s.slot i).generation + 1, body := .free }
              ∧ ((s1.wait j = .free
                  ∧ waitEndedNotice w c.code ∈ (s1.port (.client w.client.port)).queue)
                ∨ (s1.wait j = .ended w c ∧ .wait j ∈ (s1.side w.client.port).owed)))
          ∧ t.slots = (s1.grantRule n).slots ∧ t.waits = (s1.grantRule n).waits
          ∧ t.records = (s1.grantRule n).records ∧ t.sides = (s1.grantRule n).sides
          ∧ (∀ p : CPort, t.port (.client p) = (s1.grantRule n).port (.client p))
          ∧ (s.heldNotices = 0 → s.supRoom = true →
              (t.port .sup).queue = (s.port .sup).queue
                ++ [supNotice 0xE3#8 0x00#8 [byteOf n.val, a.image.code, byteOf count]]
              ∧ t.activations = (s.activations.filter fun x => !x.pendingFor n))
          ∧ (s.heldNotices ≠ 0 ∨ s.supRoom = false →
              t.port .sup = s.port .sup
              ∧ t.activations = (s.activations.map fun x =>
                  if x.pendingFor n then { x with state := .applied count } else x)))))
    ∧ (r.activationPending = false →
      exec (.activationApplication n) s = .next s
      ∧ (∀ (i : SlotNo) (l : Lease) (d : Option Limit), r.upgradePending = some i → r.holders = [i] →
        (s.slot i).body = .active l d →
        let p := l.client.port
        let fence : Fence := { epoch := s.epoch, seq := r.lastSeq + 1 }
        let lease : Option Owed → Lease := fun o => { l with mode := .exclusive, fence := fence, owed := o }
        exec (.upgradeGrant n) s = .next (s.grantRule n)
        ∧ (let t := s.grantRule n
          (t.record n).upgradePending = none ∧ (t.record n).holders = [i]
          ∧ (t.record n).lastSeq = r.lastSeq + 1
          ∧ (t.record n).queue = (if r.lastSeq + 1 = 65535 then [] else r.queue)
          ∧ (∀ (k : SlotNo) (x : Lease), k ≠ i → (s.slot k).body.live? = some x → t.slot k = s.slot k)
          ∧ (s.canTake p = true →
              t.slot i = { generation := (s.slot i).generation, body := .active (lease l.owed) none }
              ∧ ∃ ns : List Message, (t.port (.client p)).queue = (s.port (.client p)).queue ++
                { isNotice := true, code := 0xC2#8, tag := byteOf l.client.tag.val, rid := 0x00#8,
                  status := 0x00#8, body := snapshot i (s.slot i).generation (lease none) 0x02#8 none false }
                :: ns)
          ∧ (s.canTake p = false → t.slot i =
              { generation := (s.slot i).generation
                body := .active (lease (some (match l.owed with
                  | none => .upgraded
                  | some old => old.merge .upgraded))) none }
              ∧ (l.owed = none → .slot i ∈ (t.side p).owed))))
      ∧ ((r.upgradePending = none ∨ ∀ i : SlotNo, r.holders ≠ [i]) → exec (.upgradeGrant n) s = .next s
        ∧ ((r.queue = [] ∨ ∃ (j : WaitNo) (w : Wait), r.queue.head? = some j
              ∧ (s.wait j).queued? = some w ∧ s.grantable n w.mode = false) →
            s.grantRule n = s ∧ exec (.grantFromQueue n) s = .next s)
        ∧ ∀ (j : WaitNo) (rest : List WaitNo) (w : Wait) (lim : Limit) (i : SlotNo) (x : Reservation)
            (e : Fields), r.queue = j :: rest → s.wait j = .queued w lim i →
          (s.slot i).body = .reserved x → s.entry n = .defined e → s.grantable n w.mode = true →
          let p := w.client.port
          let term := if x.term = 0 then e.defaultTerm else min x.term e.maxTerm
          let lease : Option Owed → Lease := fun o =>
            { resource := n, client := w.client, mode := w.mode,
              fence := { epoch := s.epoch, seq := r.lastSeq + 1 }, granted := term, remaining := term,
              renewals := 0, warned := false, owed := o }
          ∃ t : State, exec (.grantFromQueue n) s = .next t ∧ s.grantRule n = t.grantRule n
            ∧ t.wait j = .free ∧ (t.record n).holders = r.holders ++ [i]
            ∧ (t.record n).lastSeq = r.lastSeq + 1
            ∧ (t.record n).queue = (if r.lastSeq + 1 = 65535 then [] else rest)
            ∧ (s.canTake p = true →
                t.slot i = { generation := (s.slot i).generation, body := .active (lease none) none }
                ∧ ∃ ns : List Message, (t.port (.client p)).queue = (s.port (.client p)).queue ++
                  { isNotice := true, code := 0xC1#8, tag := byteOf w.client.tag.val, rid := w.rid,
                    status := 0x00#8,
                    body := snapshot i (s.slot i).generation (lease none) 0x02#8 none false } :: ns)
            ∧ (s.canTake p = false →
                t.slot i = { generation := (s.slot i).generation
                             body := .active (lease (some (.granted w.rid))) none }
                ∧ .slot i ∈ (t.side p).owed)))

/-- A notice raised for a slot is queued at once when the owed list is empty and the queue has room, and is owed otherwise;
owed kinds merge by rank, the higher one staying. While there is room the head of the owed list is delivered and the next
one follows: a running lease then owes nothing, an ENDED slot becomes FREE with its generation advanced, an ENDED wait
entry FREE. On port S the store's held notices go first, in their order, and then the ACTIVATED notices of the applied
entries in list order, each leaving its place (R111, R113, R114, R122, R123, R15). The rows OWED_NOTICE_DELIVERY and
HELD_NOTICE_DELIVERY as events of their own, which do nothing where nothing waits or there is no room, are the model's
(log 12): the events that make room deliver by the same operations. -/
def Obligations.WaitingNoticesEnter : Prop :=
  (∀ s : State, s.serving = true →
    (∀ p : CPort, (s.side p).owed = [] ∨ (s.port (.client p)).room (.client p) = false →
      exec (.owedNoticeDelivery p) s = .next s)
    ∧ (∀ (p : CPort) (r : Ref) (rest : List Ref), (s.side p).owed = r :: rest →
      (s.port (.client p)).room (.client p) = true →
      let s0 := s.setSide p { s.side p with owed := rest }
      let goesOn : State → Prop := fun u =>
        exec (.owedNoticeDelivery p) s = exec (.owedNoticeDelivery p) u
          ∧ (rest = [] → exec (.owedNoticeDelivery p) s = .next u)
      (∀ (i : SlotNo) (l : Lease) (k : Owed), r = .slot i → (s.slot i).body.live? = some l →
        l.owed = some k → goesOn ((s0.pushMessage (.client p) (s.slotNotice i l k)).setBody i
          ((s.slot i).body.mapLease fun x => { x with owed := none })))
      ∧ (∀ (i : SlotNo) (l : Lease) (g : Option Nat) (c : EndCause), r = .slot i →
        (s.slot i).body = .ended l g c → l.owed = some .leaseEnded →
        goesOn ((s0.pushMessage (.client p)
            { isNotice := true, code := 0xC6#8, tag := byteOf l.client.tag.val, rid := 0x00#8,
              status := c.code,
              body := snapshot i (s.slot i).generation l 0x04#8 g
                (decide ((s.record l.resource).upgradePending = some i)) }).setSlot i
          { generation := (s.slot i).generation + 1, body := .free }))
      ∧ ∀ (j : WaitNo) (w : Wait) (c : WaitCause), r = .wait j → s.wait j = .ended w c →
        goesOn ((s0.pushMessage (.client p) (waitEndedNotice w c.code)).setWait j .free))
    ∧ (s.supRoom = false ∨ (s.store.held = [] ∧ ∀ a ∈ s.activations, a.state = .pending) →
      exec .heldNoticeDelivery s = .next s)
    ∧ (∀ (m : Message) (rest : List Message), s.store.held = m :: rest → s.supRoom = true →
      let u := (s.pushMessage .sup m).setStore ({ s.store with held := rest }.startLaunched)
      exec .heldNoticeDelivery s = exec .heldNoticeDelivery u
        ∧ (rest = [] → (∀ a ∈ s.activations, a.state = .pending) → exec .heldNoticeDelivery s = .next u))
    ∧ (∀ (before after : List Activation) (a : Activation) (count : Nat), s.store.held = [] →
      s.activations = before ++ a :: after → (∀ x ∈ before, x.state = .pending) →
      a.state = .applied count → s.supRoom = true →
      let u := (s.pushMessage .sup (supNotice 0xE3#8 0x00#8
        [byteOf a.resource.val, a.image.code, byteOf count])).setActivations (before ++ after)
      exec .heldNoticeDelivery s = exec .heldNoticeDelivery u
        ∧ ((∀ x ∈ after, x.state = .pending) → exec .heldNoticeDelivery s = .next u)))
  ∧ (∀ (s : State) (i : SlotNo) (l : Lease) (k : Owed), (s.slot i).body.live? = some l →
    (s.canTake l.client.port = true →
      s.offer i k = s.pushMessage (.client l.client.port) (s.slotNotice i l k))
    ∧ (s.canTake l.client.port = false →
      (l.owed = none → s.offer i k = (s.setOwed i (some k)).joinOwed l.client.port (.slot i))
      ∧ ∀ old, l.owed = some old → s.offer i k = s.setOwed i (some (old.merge k))))
  ∧ ∀ old new : Owed,
      (old.merge new).rank = min old.rank new.rank
      ∧ (old.rank < new.rank → old.merge new = old)
      ∧ (new.rank < old.rank → old.merge new = new)
      ∧ ∀ c c' : UpgradeEndCause, Owed.merge (.upgradeEnded c) (.upgradeEnded c') = .upgradeEnded c'

/-! ### Images and frames -/

/-- An image is UNDEFINED when blank, DAMAGED when its CRC-16 or a range check fails, DEFINED otherwise; an image that
PROGRAM_ENTRY accepts is classified DEFINED with its fields (R1, R137). -/
def Obligations.ImagesClassified : Prop :=
  (∀ bs : List Byte,
    (blank bs = true → classify bs = .undefined)
    ∧ (blank bs = false → bs.drop 22 ≠ crc16Bytes (bs.take 22) → classify bs = .damaged)
    ∧ (blank bs = false → bs.drop 22 = crc16Bytes (bs.take 22) → fieldsOf? (bs.take 22) = none →
        classify bs = .damaged)
    ∧ ∀ x : Fields, blank bs = false → bs.drop 22 = crc16Bytes (bs.take 22) →
        fieldsOf? (bs.take 22) = some x → classify bs = .defined x)
  ∧ ∀ (bs : List Byte) (x : Fields), bs.length = 22 → fieldsOf? bs = some x →
      classify (sealImage bs) = .defined x

/-- The commands that change no byte of the array: all but the start-up's completion, RESET#, power loss, RESTART and the
completions of operations that write (R135). The client requests and the supervisor's requests on leases leave the
store, the timebase, the epoch, the part state, the active page, the rotation and every detach policy as they are, and
all but RESET_PORT every FIFO and flag (R85, R116, R117, R132). -/
def Obligations.CommandsLeaveTheRest : Prop :=
  (∀ (c : Instr) (s t : State), exec c s = .next t →
    (match c with
      | .startUpComplete _ | .resetAssert _ | .powerLoss _ | .restart _ | .programEntryComplete _
      | .erasePageComplete _ | .eraseDirectoryComplete _ | .writeSettingsComplete _
      | .initHeaderComplete _ => False
      | _ => True) → ∀ a : Nat, Memory.read t.array a = Memory.read s.array a)
  ∧ ∀ c ∈ clientRows ++ [.status, .readLease, .readResource, .readQueue, .readWait, .revoke,
      .revokeResource, .purgeClient, .activate, .cancelActivation],
    ∀ s t : State, exec c s = .next t →
      t.store = s.store ∧ t.array = s.array ∧ t.prescale = s.prescale ∧ t.run = s.run
        ∧ t.divider = s.divider ∧ t.epoch = s.epoch ∧ t.part = s.part ∧ t.active = s.active
        ∧ t.rotation = s.rotation ∧ (∀ p : CPort, (t.side p).policy = (s.side p).policy)
        ∧ (c ≠ .resetPort → ∀ p : PortId, (t.port p).fifo = (s.port p).fifo
            ∧ (t.port p).overrun = (s.port p).overrun
            ∧ (t.port p).frameError = (s.port p).frameError
            ∧ (t.port p).restarted = (s.port p).restarted)
end

