-- ==== Sys2Proof/Laws/Checks.lean ====
section
/-! SUPPORT. The laws of the tables as checks that the kernel evaluates on one state, each with the lemma that a
state passing it obeys the law: the tests show their states by them. -/

namespace Sys2Proof.Machine

/-- A check at every place of a vector, in one pass. -/
def everywhere {α : Type} {n : Nat} (v : Vector α n) (f : Fin n → α → Bool) : Bool :=
  ((List.finRange n).zip v.toList).all fun x => f x.1 x.2

theorem everywhere_get {α : Type} {n : Nat} {v : Vector α n} {f : Fin n → α → Bool}
    (h : everywhere v f = true) (i : Fin n) : f i (v.get i) = true := by
  rw [everywhere, List.all_eq_true] at h
  refine h (i, v.get i) (List.mem_iff_getElem.mpr ⟨i.val, by simp, ?_⟩)
  simp [Vector.get]

theorem mem_allWaits (j : WaitNo) : j ∈ allWaits := by simp [allWaits]

/-! ### Holders and reservations (R5, R46) -/

/-- An EXCLUSIVE holder is alone in the list. -/
def State.aloneCheck (s : State) (hs : List SlotNo) : Bool :=
  hs.all fun i => !decide ((s.slot i).body.live?.map Lease.mode = some .exclusive) || decide (hs = [i])

def State.holderCheck (s : State) : Bool :=
  (everywhere s.records fun n r =>
    decide r.holders.Nodup && (r.holders.all fun i => decide (s.leaseOn i = some n)) && s.aloneCheck r.holders)
  && everywhere s.slots fun i v => (v.body.live?.map Lease.resource).all fun n =>
    decide (i ∈ (s.record n).holders)


theorem holderLaw_of_check {s : State} (h : s.holderCheck = true) : holderLaw s := by
  rw [State.holderCheck, Bool.and_eq_true] at h
  obtain ⟨hr, hs⟩ := h
  intro n
  have hn := everywhere_get hr n
  simp only [State.aloneCheck, Bool.and_eq_true, List.all_eq_true, Bool.or_eq_true, Bool.not_eq_true',
    decide_eq_true_eq, decide_eq_false_iff_not] at hn
  obtain ⟨⟨h1, h2⟩, h3⟩ := hn
  refine ⟨h1, fun i => ⟨h2 i, fun hi => ?_⟩, fun i hi he => ?_⟩
  · have hi' := everywhere_get hs i
    simp only [Option.all_eq_true, decide_eq_true_eq] at hi'
    exact hi' n hi
  rcases h3 i hi with h | h
  · exact absurd he h
  · exact h

/-- The slot is RESERVED for the wait. -/
def SlotBody.reservedCheck (b : SlotBody) (w : Wait) : Bool :=
  match b with
  | .reserved r => decide (r.resource = w.resource) && decide (r.client = w.client) && decide (r.mode = w.mode)
  | .free | .active _ _ | .revoking _ _ | .ended _ _ _ => false

/-- The entry's reservation stands, and no other entry names its slot. -/
def State.waitReserves (s : State) (j : WaitNo) (e : WaitEntry) : Bool :=
  match e with
  | .queued w _ i =>
    (s.slot i).body.reservedCheck w
      && allWaits.all fun k => !decide ((s.wait k).reserves = some i) || decide (j = k)
  | .free | .ended _ _ => true

def State.reservationCheck (s : State) : Bool :=
  everywhere s.waits s.waitReserves
    && everywhere s.slots fun i v => match v.body with
      | .reserved _ => allWaits.any fun j => decide ((s.wait j).reserves = some i)
      | .free | .active _ _ | .revoking _ _ | .ended _ _ _ => true

theorem reservationLaw_of_check {s : State} (h : s.reservationCheck = true) : reservationLaw s := by
  rw [State.reservationCheck, Bool.and_eq_true] at h
  obtain ⟨hw, hs⟩ := h
  refine ⟨fun j => ?_, fun j k hj hjk => ?_, fun i r hr => ?_⟩
  · have h : s.waitReserves j (s.wait j) = true := everywhere_get hw j
    unfold State.waitReserves at h
    cases hq : s.wait j with
    | free => trivial
    | ended w c => trivial
    | queued w l i =>
      simp only [hq, Bool.and_eq_true] at h
      cases hb : (s.slot i).body with
      | reserved r =>
        simpa [SlotBody.reservedCheck, hb, SlotBody.reservedFor, Reservation.answers, and_assoc] using h.1
      | _ => simp [SlotBody.reservedCheck, hb] at h
  · have h : s.waitReserves j (s.wait j) = true := everywhere_get hw j
    unfold State.waitReserves at h
    cases hq : s.wait j with
    | free => simp [hq, WaitEntry.reserves] at hj
    | ended w c => simp [hq, WaitEntry.reserves] at hj
    | queued w l i =>
      simp only [hq, Bool.and_eq_true, List.all_eq_true, Bool.or_eq_true, Bool.not_eq_true',
        decide_eq_false_iff_not, decide_eq_true_eq] at h
      rcases h.2 k (mem_allWaits k) with h | h
      · simp [hq, WaitEntry.reserves] at hjk; exact absurd hjk.symm h
      · exact h
  · have h := everywhere_get hs i
    change (match (s.slot i).body with
      | .reserved _ => allWaits.any fun j => decide ((s.wait j).reserves = some i)
      | .free | .active _ _ | .revoking _ _ | .ended _ _ _ => true) = true at h
    simp only [hr, List.any_eq_true, decide_eq_true_eq] at h
    obtain ⟨j, _, hj⟩ := h
    exact ⟨j, hj⟩

theorem leaseLaw_of_check {s : State} (h : (s.holderCheck && s.reservationCheck) = true) : leaseLaw s := by
  rw [Bool.and_eq_true] at h
  exact ⟨holderLaw_of_check h.1, reservationLaw_of_check h.2⟩

/-! ### Queues, upgrades and heads (R6, R66, R59) -/

def State.waitListCheck (s : State) : Bool :=
  (everywhere s.records fun n r =>
    decide r.queue.Nodup && r.queue.all fun j => decide ((s.wait j).queued?.map Wait.resource = some n))
  && everywhere s.waits fun j e => e.queued?.all fun w => decide (j ∈ (s.record w.resource).queue)

theorem waitListLaw_of_check {s : State} (h : s.waitListCheck = true) : waitListLaw s := by
  rw [State.waitListCheck, Bool.and_eq_true] at h
  obtain ⟨hr, hw⟩ := h
  intro n
  have hn := everywhere_get hr n
  simp only [Bool.and_eq_true, List.all_eq_true, decide_eq_true_eq] at hn
  refine ⟨hn.1, fun j => ⟨hn.2 j, fun hj => ?_⟩⟩
  obtain ⟨w, hq, rfl⟩ := Option.map_eq_some_iff.mp hj
  have h := everywhere_get hw j
  simp only [Option.all_eq_true, decide_eq_true_eq] at h
  exact h w hq

/-- The slot is ACTIVE and SHARED with a deadline. -/
def SlotBody.upgrading : SlotBody → Bool
  | .active l d => d.isSome && decide (l.mode = .shared)
  | .free | .reserved _ | .revoking _ _ | .ended _ _ _ => false

/-- The slot's deadline, if it has one, is that of its resource's pending upgrade. -/
def State.deadlineNamed (s : State) (i : SlotNo) (v : Slot) : Bool :=
  match v.body with
  | .active l d => d.isNone || decide ((s.record l.resource).upgradePending = some i)
  | .free | .reserved _ | .revoking _ _ | .ended _ _ _ => true

def State.upgradeCheck (s : State) : Bool :=
  (everywhere s.records fun _ r => r.upgradePending.all fun i =>
    decide (i ∈ r.holders) && (s.slot i).body.upgrading)
  && everywhere s.slots s.deadlineNamed

theorem upgradeLaw_of_check {s : State} (h : s.upgradeCheck = true) : upgradeLaw s := by
  rw [State.upgradeCheck, Bool.and_eq_true] at h
  obtain ⟨hr, hs⟩ := h
  have hn : ∀ n i, (s.record n).upgradePending = some i →
      i ∈ (s.record n).holders ∧ (s.slot i).body.upgrading = true := fun n i hi => by
    have h := everywhere_get hr n
    simp only [Option.all_eq_true, Bool.and_eq_true, decide_eq_true_eq] at h
    exact h i hi
  refine ⟨fun n i hi => ⟨(hn n i hi).1, ?_⟩, fun i l d hb => ?_⟩
  · have hu := (hn n i hi).2
    cases hb : (s.slot i).body with
    | active l d =>
      cases d with
      | none => simp [hb, SlotBody.upgrading] at hu
      | some d => simp [hb, SlotBody.upgrading] at hu; exact ⟨l, d, rfl, hu⟩
    | _ => simp [hb, SlotBody.upgrading] at hu
  · have h : s.deadlineNamed i (s.slot i) = true := everywhere_get hs i
    simpa [State.deadlineNamed, hb] using h

/-- The head of the resource's queue is not grantable. -/
def State.headWaits (s : State) (n : ResNo) (r : Record) : Bool :=
  match r.queue with
  | [] => true
  | j :: _ => (s.wait j).queued?.all fun w => !s.grantable n w.mode

def State.headCheck (s : State) : Bool :=
  everywhere s.records fun n r =>
    (decide (s.part ≠ .starting) || r.queue.isEmpty) && s.headWaits n r

theorem headLaw_of_check {s : State} (h : s.headCheck = true) : headLaw s := by
  have hn : ∀ n, (s.part ≠ .starting ∨ (s.record n).queue = []) ∧ s.headWaits n (s.record n) = true := by
    intro n
    have h := everywhere_get h n
    simp only [Bool.and_eq_true, Bool.or_eq_true, decide_eq_true_eq, List.isEmpty_iff] at h
    exact h
  refine ⟨fun hp n => ?_, fun n j rest w r i hq hw => ?_⟩
  · rcases (hn n).1 with h | h
    · exact absurd hp h
    · exact h
  · have h := (hn n).2
    simpa [State.headWaits, hq, hw, WaitEntry.queued?] using h

/-! ### Owed lists (R33, R52, R112) -/

/-- The record owes a notice on the port. -/
def State.owesCheck (s : State) (p : CPort) : Ref → Bool
  | .slot i => (s.slot i).body.lease?.any fun l => decide (l.client.port = p) && l.owed.isSome
  | .wait j =>
    match s.wait j with
    | .ended w _ => decide (w.client.port = p)
    | .free | .queued _ _ _ => false

def State.owedCheck (s : State) : Bool :=
  (allClientPorts.all fun p =>
    decide (s.side p).owed.Nodup && ((s.side p).owed.all fun r => s.owesCheck p r)
      && (everywhere s.slots fun i v => v.body.lease?.all fun l =>
        !(decide (l.client.port = p) && l.owed.isSome) || decide (.slot i ∈ (s.side p).owed))
      && everywhere s.waits fun j e => match e with
        | .ended w _ => !decide (w.client.port = p) || decide (.wait j ∈ (s.side p).owed)
        | .free | .queued _ _ _ => true)
  && everywhere s.slots fun _ v => match v.body with
    | .ended l _ _ => decide (l.owed = some .leaseEnded)
    | .free | .reserved _ | .active _ _ | .revoking _ _ => true

theorem owesOn_iff_check (s : State) (p : CPort) (r : Ref) : s.owesOn p r ↔ s.owesCheck p r = true := by
  cases r with
  | slot i =>
    simp only [State.owesOn, State.owesCheck, Option.any_eq_true, Bool.and_eq_true, decide_eq_true_eq,
      Option.isSome_iff_ne_none]
  | wait j => cases h : s.wait j <;> simp [State.owesOn, State.owesCheck, h]

theorem owedLaw_of_check {s : State} (h : s.owedCheck = true) : owedLaw s := by
  simp only [State.owedCheck, Bool.and_eq_true, List.all_eq_true] at h
  obtain ⟨hp, hs⟩ := h
  refine ⟨fun p => ?_, fun i l g c hb => ?_⟩
  · obtain ⟨⟨⟨h1, h2⟩, h3⟩, h4⟩ := hp p (by cases p <;> simp [allClientPorts])
    refine ⟨of_decide_eq_true h1, fun r => ⟨fun hr => (owesOn_iff_check s p r).mpr (h2 r hr), fun hr => ?_⟩⟩
    cases r with
    | slot i =>
      obtain ⟨l, hl, hc, ho⟩ := hr
      have h := everywhere_get h3 i
      change ((s.slot i).body.lease?.all _) = true at h
      rw [hl] at h
      simpa [hc, ho] using h
    | wait j =>
      obtain ⟨w, c, hw, hc⟩ := hr
      have h := everywhere_get h4 j
      change (match s.wait j with
        | .ended w _ => !decide (w.client.port = p) || decide (Ref.wait j ∈ (s.side p).owed)
        | .free | .queued _ _ _ => true) = true at h
      rw [hw] at h
      simpa [hc] using h
  · have h := everywhere_get hs i
    change (match (s.slot i).body with
      | .ended l _ _ => decide (l.owed = some .leaseEnded)
      | .free | .reserved _ | .active _ _ | .revoking _ _ => true) = true at h
    rw [hb] at h
    exact of_decide_eq_true h

/-! ### Activations (R8, R9) -/

def State.activationCheck (s : State) : Bool :=
  decide (s.activations.length ≤ Config.activationPlaces)
    && everywhere s.records fun n r =>
      decide ((s.activations.countP fun a => a.pendingFor n) = r.activationPending.toNat)

theorem activationLaw_of_check {s : State} (h : s.activationCheck = true) : activationLaw s := by
  rw [State.activationCheck, Bool.and_eq_true] at h
  exact ⟨of_decide_eq_true h.1, fun n => of_decide_eq_true (everywhere_get h.2 n)⟩

/-! ### What no event leaves waiting (R14, R104, R114, R123) -/

def State.deliveryCheck (s : State) : Bool :=
  (allClientPorts.all fun p => decide ((s.side p).owed = []) || !(s.port (.client p)).room (.client p))
    && (decide (s.heldNotices = 0) || !s.supRoom)

theorem deliveryLaw_of_check {s : State} (h : s.deliveryCheck = true) : deliveryLaw s := by
  simp only [State.deliveryCheck, Bool.and_eq_true, List.all_eq_true, Bool.or_eq_true, Bool.not_eq_true',
    decide_eq_true_eq] at h
  exact ⟨fun p => h.1 p (by cases p <;> simp [allClientPorts]), h.2⟩

def State.markCheck (s : State) : Bool :=
  everywhere s.records fun _ r => !r.activationPending || !decide (r.holders = [])

theorem markLaw_of_check {s : State} (h : s.markCheck = true) : markLaw s := fun n hn => by
  have hr := everywhere_get h n
  have hp : (s.records.get n).activationPending = true := hn
  simpa [hp, State.record] using hr

/-! ### All of them -/

/-- The state obeys the laws of the tables. -/
def State.lawful (s : State) : Prop :=
  leaseLaw s ∧ waitListLaw s ∧ upgradeLaw s ∧ owedLaw s ∧ activationLaw s

def State.lawfulCheck (s : State) : Bool :=
  (s.holderCheck && s.reservationCheck) && s.waitListCheck && s.upgradeCheck && s.owedCheck && s.activationCheck

theorem lawful_of_check {s : State} (h : s.lawfulCheck = true) : s.lawful := by
  simp only [State.lawfulCheck, Bool.and_eq_true] at h
  obtain ⟨⟨⟨⟨h1, h2⟩, h3⟩, h4⟩, h5⟩ := h
  exact ⟨leaseLaw_of_check (by simp [h1.1, h1.2]), waitListLaw_of_check h2, upgradeLaw_of_check h3,
    owedLaw_of_check h4, activationLaw_of_check h5⟩

end Sys2Proof.Machine
end

