-- ==== Sys2Proof/Laws/State.lean ====
section
/-! SUPPORT. One lemma for each field and each update, true by rfl, and what an update leaves at its own place
and at the others. -/

namespace Sys2Proof.Machine

variable (s : State)

/-! ### setPort -/

@[simp] theorem State.setPort_powered (p : PortId) (u : PortUnit) : (s.setPort p u).powered = s.powered := rfl
@[simp] theorem State.setPort_resetLow (p : PortId) (u : PortUnit) : (s.setPort p u).resetLow = s.resetLow := rfl
@[simp] theorem State.setPort_part (p : PortId) (u : PortUnit) : (s.setPort p u).part = s.part := rfl
@[simp] theorem State.setPort_epoch (p : PortId) (u : PortUnit) : (s.setPort p u).epoch = s.epoch := rfl
@[simp] theorem State.setPort_active (p : PortId) (u : PortUnit) : (s.setPort p u).active = s.active := rfl
@[simp] theorem State.setPort_sides (p : PortId) (u : PortUnit) : (s.setPort p u).sides = s.sides := rfl
@[simp] theorem State.setPort_rotation (p : PortId) (u : PortUnit) : (s.setPort p u).rotation = s.rotation := rfl
@[simp] theorem State.setPort_engine (p : PortId) (u : PortUnit) : (s.setPort p u).engine = s.engine := rfl
@[simp] theorem State.setPort_entries (p : PortId) (u : PortUnit) : (s.setPort p u).entries = s.entries := rfl
@[simp] theorem State.setPort_records (p : PortId) (u : PortUnit) : (s.setPort p u).records = s.records := rfl
@[simp] theorem State.setPort_activations (p : PortId) (u : PortUnit) : (s.setPort p u).activations = s.activations := rfl
@[simp] theorem State.setPort_slots (p : PortId) (u : PortUnit) : (s.setPort p u).slots = s.slots := rfl
@[simp] theorem State.setPort_waits (p : PortId) (u : PortUnit) : (s.setPort p u).waits = s.waits := rfl
@[simp] theorem State.setPort_prescale (p : PortId) (u : PortUnit) : (s.setPort p u).prescale = s.prescale := rfl
@[simp] theorem State.setPort_run (p : PortId) (u : PortUnit) : (s.setPort p u).run = s.run := rfl
@[simp] theorem State.setPort_divider (p : PortId) (u : PortUnit) : (s.setPort p u).divider = s.divider := rfl
@[simp] theorem State.setPort_leaseTicks (p : PortId) (u : PortUnit) : (s.setPort p u).leaseTicks = s.leaseTicks := rfl
@[simp] theorem State.setPort_waitTicks (p : PortId) (u : PortUnit) : (s.setPort p u).waitTicks = s.waitTicks := rfl
@[simp] theorem State.setPort_upgradeTicks (p : PortId) (u : PortUnit) : (s.setPort p u).upgradeTicks = s.upgradeTicks := rfl
@[simp] theorem State.setPort_store (p : PortId) (u : PortUnit) : (s.setPort p u).store = s.store := rfl
@[simp] theorem State.setPort_array (p : PortId) (u : PortUnit) : (s.setPort p u).array = s.array := rfl
@[simp] theorem State.setPort_pending (p : PortId) (u : PortUnit) : (s.setPort p u).pending = s.pending := rfl
@[simp] theorem State.setPort_side (p : PortId) (u : PortUnit) (q : CPort) : (s.setPort p u).side q = s.side q := rfl
@[simp] theorem State.setPort_entry (p : PortId) (u : PortUnit) (k : ResNo) : (s.setPort p u).entry k = s.entry k := rfl
@[simp] theorem State.setPort_record (p : PortId) (u : PortUnit) (k : ResNo) : (s.setPort p u).record k = s.record k := rfl
@[simp] theorem State.setPort_slot (p : PortId) (u : PortUnit) (k : SlotNo) : (s.setPort p u).slot k = s.slot k := rfl
@[simp] theorem State.setPort_wait (p : PortId) (u : PortUnit) (k : WaitNo) : (s.setPort p u).wait k = s.wait k := rfl
@[simp] theorem State.setPort_alive (p : PortId) (u : PortUnit) : (s.setPort p u).alive = s.alive := rfl
@[simp] theorem State.setPort_serving (p : PortId) (u : PortUnit) : (s.setPort p u).serving = s.serving := rfl

/-! ### setSide -/

@[simp] theorem State.setSide_powered (p : CPort) (v : ClientSide) : (s.setSide p v).powered = s.powered := rfl
@[simp] theorem State.setSide_resetLow (p : CPort) (v : ClientSide) : (s.setSide p v).resetLow = s.resetLow := rfl
@[simp] theorem State.setSide_part (p : CPort) (v : ClientSide) : (s.setSide p v).part = s.part := rfl
@[simp] theorem State.setSide_epoch (p : CPort) (v : ClientSide) : (s.setSide p v).epoch = s.epoch := rfl
@[simp] theorem State.setSide_active (p : CPort) (v : ClientSide) : (s.setSide p v).active = s.active := rfl
@[simp] theorem State.setSide_ports (p : CPort) (v : ClientSide) : (s.setSide p v).ports = s.ports := rfl
@[simp] theorem State.setSide_rotation (p : CPort) (v : ClientSide) : (s.setSide p v).rotation = s.rotation := rfl
@[simp] theorem State.setSide_engine (p : CPort) (v : ClientSide) : (s.setSide p v).engine = s.engine := rfl
@[simp] theorem State.setSide_entries (p : CPort) (v : ClientSide) : (s.setSide p v).entries = s.entries := rfl
@[simp] theorem State.setSide_records (p : CPort) (v : ClientSide) : (s.setSide p v).records = s.records := rfl
@[simp] theorem State.setSide_activations (p : CPort) (v : ClientSide) : (s.setSide p v).activations = s.activations := rfl
@[simp] theorem State.setSide_slots (p : CPort) (v : ClientSide) : (s.setSide p v).slots = s.slots := rfl
@[simp] theorem State.setSide_waits (p : CPort) (v : ClientSide) : (s.setSide p v).waits = s.waits := rfl
@[simp] theorem State.setSide_prescale (p : CPort) (v : ClientSide) : (s.setSide p v).prescale = s.prescale := rfl
@[simp] theorem State.setSide_run (p : CPort) (v : ClientSide) : (s.setSide p v).run = s.run := rfl
@[simp] theorem State.setSide_divider (p : CPort) (v : ClientSide) : (s.setSide p v).divider = s.divider := rfl
@[simp] theorem State.setSide_leaseTicks (p : CPort) (v : ClientSide) : (s.setSide p v).leaseTicks = s.leaseTicks := rfl
@[simp] theorem State.setSide_waitTicks (p : CPort) (v : ClientSide) : (s.setSide p v).waitTicks = s.waitTicks := rfl
@[simp] theorem State.setSide_upgradeTicks (p : CPort) (v : ClientSide) : (s.setSide p v).upgradeTicks = s.upgradeTicks := rfl
@[simp] theorem State.setSide_store (p : CPort) (v : ClientSide) : (s.setSide p v).store = s.store := rfl
@[simp] theorem State.setSide_array (p : CPort) (v : ClientSide) : (s.setSide p v).array = s.array := rfl
@[simp] theorem State.setSide_pending (p : CPort) (v : ClientSide) : (s.setSide p v).pending = s.pending := rfl
@[simp] theorem State.setSide_port (p : CPort) (v : ClientSide) (q : PortId) : (s.setSide p v).port q = s.port q := rfl
@[simp] theorem State.setSide_entry (p : CPort) (v : ClientSide) (k : ResNo) : (s.setSide p v).entry k = s.entry k := rfl
@[simp] theorem State.setSide_record (p : CPort) (v : ClientSide) (k : ResNo) : (s.setSide p v).record k = s.record k := rfl
@[simp] theorem State.setSide_slot (p : CPort) (v : ClientSide) (k : SlotNo) : (s.setSide p v).slot k = s.slot k := rfl
@[simp] theorem State.setSide_wait (p : CPort) (v : ClientSide) (k : WaitNo) : (s.setSide p v).wait k = s.wait k := rfl
@[simp] theorem State.setSide_alive (p : CPort) (v : ClientSide) : (s.setSide p v).alive = s.alive := rfl
@[simp] theorem State.setSide_serving (p : CPort) (v : ClientSide) : (s.setSide p v).serving = s.serving := rfl

/-! ### setEntry -/

@[simp] theorem State.setEntry_powered (n : ResNo) (e : Entry) : (s.setEntry n e).powered = s.powered := rfl
@[simp] theorem State.setEntry_resetLow (n : ResNo) (e : Entry) : (s.setEntry n e).resetLow = s.resetLow := rfl
@[simp] theorem State.setEntry_part (n : ResNo) (e : Entry) : (s.setEntry n e).part = s.part := rfl
@[simp] theorem State.setEntry_epoch (n : ResNo) (e : Entry) : (s.setEntry n e).epoch = s.epoch := rfl
@[simp] theorem State.setEntry_active (n : ResNo) (e : Entry) : (s.setEntry n e).active = s.active := rfl
@[simp] theorem State.setEntry_ports (n : ResNo) (e : Entry) : (s.setEntry n e).ports = s.ports := rfl
@[simp] theorem State.setEntry_sides (n : ResNo) (e : Entry) : (s.setEntry n e).sides = s.sides := rfl
@[simp] theorem State.setEntry_rotation (n : ResNo) (e : Entry) : (s.setEntry n e).rotation = s.rotation := rfl
@[simp] theorem State.setEntry_engine (n : ResNo) (e : Entry) : (s.setEntry n e).engine = s.engine := rfl
@[simp] theorem State.setEntry_records (n : ResNo) (e : Entry) : (s.setEntry n e).records = s.records := rfl
@[simp] theorem State.setEntry_activations (n : ResNo) (e : Entry) : (s.setEntry n e).activations = s.activations := rfl
@[simp] theorem State.setEntry_slots (n : ResNo) (e : Entry) : (s.setEntry n e).slots = s.slots := rfl
@[simp] theorem State.setEntry_waits (n : ResNo) (e : Entry) : (s.setEntry n e).waits = s.waits := rfl
@[simp] theorem State.setEntry_prescale (n : ResNo) (e : Entry) : (s.setEntry n e).prescale = s.prescale := rfl
@[simp] theorem State.setEntry_run (n : ResNo) (e : Entry) : (s.setEntry n e).run = s.run := rfl
@[simp] theorem State.setEntry_divider (n : ResNo) (e : Entry) : (s.setEntry n e).divider = s.divider := rfl
@[simp] theorem State.setEntry_leaseTicks (n : ResNo) (e : Entry) : (s.setEntry n e).leaseTicks = s.leaseTicks := rfl
@[simp] theorem State.setEntry_waitTicks (n : ResNo) (e : Entry) : (s.setEntry n e).waitTicks = s.waitTicks := rfl
@[simp] theorem State.setEntry_upgradeTicks (n : ResNo) (e : Entry) : (s.setEntry n e).upgradeTicks = s.upgradeTicks := rfl
@[simp] theorem State.setEntry_store (n : ResNo) (e : Entry) : (s.setEntry n e).store = s.store := rfl
@[simp] theorem State.setEntry_array (n : ResNo) (e : Entry) : (s.setEntry n e).array = s.array := rfl
@[simp] theorem State.setEntry_pending (n : ResNo) (e : Entry) : (s.setEntry n e).pending = s.pending := rfl
@[simp] theorem State.setEntry_port (n : ResNo) (e : Entry) (q : PortId) : (s.setEntry n e).port q = s.port q := rfl
@[simp] theorem State.setEntry_side (n : ResNo) (e : Entry) (q : CPort) : (s.setEntry n e).side q = s.side q := rfl
@[simp] theorem State.setEntry_record (n : ResNo) (e : Entry) (k : ResNo) : (s.setEntry n e).record k = s.record k := rfl
@[simp] theorem State.setEntry_slot (n : ResNo) (e : Entry) (k : SlotNo) : (s.setEntry n e).slot k = s.slot k := rfl
@[simp] theorem State.setEntry_wait (n : ResNo) (e : Entry) (k : WaitNo) : (s.setEntry n e).wait k = s.wait k := rfl
@[simp] theorem State.setEntry_alive (n : ResNo) (e : Entry) : (s.setEntry n e).alive = s.alive := rfl
@[simp] theorem State.setEntry_serving (n : ResNo) (e : Entry) : (s.setEntry n e).serving = s.serving := rfl

/-! ### setRecord -/

@[simp] theorem State.setRecord_powered (n : ResNo) (r : Record) : (s.setRecord n r).powered = s.powered := rfl
@[simp] theorem State.setRecord_resetLow (n : ResNo) (r : Record) : (s.setRecord n r).resetLow = s.resetLow := rfl
@[simp] theorem State.setRecord_part (n : ResNo) (r : Record) : (s.setRecord n r).part = s.part := rfl
@[simp] theorem State.setRecord_epoch (n : ResNo) (r : Record) : (s.setRecord n r).epoch = s.epoch := rfl
@[simp] theorem State.setRecord_active (n : ResNo) (r : Record) : (s.setRecord n r).active = s.active := rfl
@[simp] theorem State.setRecord_ports (n : ResNo) (r : Record) : (s.setRecord n r).ports = s.ports := rfl
@[simp] theorem State.setRecord_sides (n : ResNo) (r : Record) : (s.setRecord n r).sides = s.sides := rfl
@[simp] theorem State.setRecord_rotation (n : ResNo) (r : Record) : (s.setRecord n r).rotation = s.rotation := rfl
@[simp] theorem State.setRecord_engine (n : ResNo) (r : Record) : (s.setRecord n r).engine = s.engine := rfl
@[simp] theorem State.setRecord_entries (n : ResNo) (r : Record) : (s.setRecord n r).entries = s.entries := rfl
@[simp] theorem State.setRecord_activations (n : ResNo) (r : Record) : (s.setRecord n r).activations = s.activations := rfl
@[simp] theorem State.setRecord_slots (n : ResNo) (r : Record) : (s.setRecord n r).slots = s.slots := rfl
@[simp] theorem State.setRecord_waits (n : ResNo) (r : Record) : (s.setRecord n r).waits = s.waits := rfl
@[simp] theorem State.setRecord_prescale (n : ResNo) (r : Record) : (s.setRecord n r).prescale = s.prescale := rfl
@[simp] theorem State.setRecord_run (n : ResNo) (r : Record) : (s.setRecord n r).run = s.run := rfl
@[simp] theorem State.setRecord_divider (n : ResNo) (r : Record) : (s.setRecord n r).divider = s.divider := rfl
@[simp] theorem State.setRecord_leaseTicks (n : ResNo) (r : Record) : (s.setRecord n r).leaseTicks = s.leaseTicks := rfl
@[simp] theorem State.setRecord_waitTicks (n : ResNo) (r : Record) : (s.setRecord n r).waitTicks = s.waitTicks := rfl
@[simp] theorem State.setRecord_upgradeTicks (n : ResNo) (r : Record) : (s.setRecord n r).upgradeTicks = s.upgradeTicks := rfl
@[simp] theorem State.setRecord_store (n : ResNo) (r : Record) : (s.setRecord n r).store = s.store := rfl
@[simp] theorem State.setRecord_array (n : ResNo) (r : Record) : (s.setRecord n r).array = s.array := rfl
@[simp] theorem State.setRecord_pending (n : ResNo) (r : Record) : (s.setRecord n r).pending = s.pending := rfl
@[simp] theorem State.setRecord_port (n : ResNo) (r : Record) (q : PortId) : (s.setRecord n r).port q = s.port q := rfl
@[simp] theorem State.setRecord_side (n : ResNo) (r : Record) (q : CPort) : (s.setRecord n r).side q = s.side q := rfl
@[simp] theorem State.setRecord_entry (n : ResNo) (r : Record) (k : ResNo) : (s.setRecord n r).entry k = s.entry k := rfl
@[simp] theorem State.setRecord_slot (n : ResNo) (r : Record) (k : SlotNo) : (s.setRecord n r).slot k = s.slot k := rfl
@[simp] theorem State.setRecord_wait (n : ResNo) (r : Record) (k : WaitNo) : (s.setRecord n r).wait k = s.wait k := rfl
@[simp] theorem State.setRecord_alive (n : ResNo) (r : Record) : (s.setRecord n r).alive = s.alive := rfl
@[simp] theorem State.setRecord_serving (n : ResNo) (r : Record) : (s.setRecord n r).serving = s.serving := rfl

/-! ### setSlot -/

@[simp] theorem State.setSlot_powered (i : SlotNo) (v : Slot) : (s.setSlot i v).powered = s.powered := rfl
@[simp] theorem State.setSlot_resetLow (i : SlotNo) (v : Slot) : (s.setSlot i v).resetLow = s.resetLow := rfl
@[simp] theorem State.setSlot_part (i : SlotNo) (v : Slot) : (s.setSlot i v).part = s.part := rfl
@[simp] theorem State.setSlot_epoch (i : SlotNo) (v : Slot) : (s.setSlot i v).epoch = s.epoch := rfl
@[simp] theorem State.setSlot_active (i : SlotNo) (v : Slot) : (s.setSlot i v).active = s.active := rfl
@[simp] theorem State.setSlot_ports (i : SlotNo) (v : Slot) : (s.setSlot i v).ports = s.ports := rfl
@[simp] theorem State.setSlot_sides (i : SlotNo) (v : Slot) : (s.setSlot i v).sides = s.sides := rfl
@[simp] theorem State.setSlot_rotation (i : SlotNo) (v : Slot) : (s.setSlot i v).rotation = s.rotation := rfl
@[simp] theorem State.setSlot_engine (i : SlotNo) (v : Slot) : (s.setSlot i v).engine = s.engine := rfl
@[simp] theorem State.setSlot_entries (i : SlotNo) (v : Slot) : (s.setSlot i v).entries = s.entries := rfl
@[simp] theorem State.setSlot_records (i : SlotNo) (v : Slot) : (s.setSlot i v).records = s.records := rfl
@[simp] theorem State.setSlot_activations (i : SlotNo) (v : Slot) : (s.setSlot i v).activations = s.activations := rfl
@[simp] theorem State.setSlot_waits (i : SlotNo) (v : Slot) : (s.setSlot i v).waits = s.waits := rfl
@[simp] theorem State.setSlot_prescale (i : SlotNo) (v : Slot) : (s.setSlot i v).prescale = s.prescale := rfl
@[simp] theorem State.setSlot_run (i : SlotNo) (v : Slot) : (s.setSlot i v).run = s.run := rfl
@[simp] theorem State.setSlot_divider (i : SlotNo) (v : Slot) : (s.setSlot i v).divider = s.divider := rfl
@[simp] theorem State.setSlot_leaseTicks (i : SlotNo) (v : Slot) : (s.setSlot i v).leaseTicks = s.leaseTicks := rfl
@[simp] theorem State.setSlot_waitTicks (i : SlotNo) (v : Slot) : (s.setSlot i v).waitTicks = s.waitTicks := rfl
@[simp] theorem State.setSlot_upgradeTicks (i : SlotNo) (v : Slot) : (s.setSlot i v).upgradeTicks = s.upgradeTicks := rfl
@[simp] theorem State.setSlot_store (i : SlotNo) (v : Slot) : (s.setSlot i v).store = s.store := rfl
@[simp] theorem State.setSlot_array (i : SlotNo) (v : Slot) : (s.setSlot i v).array = s.array := rfl
@[simp] theorem State.setSlot_pending (i : SlotNo) (v : Slot) : (s.setSlot i v).pending = s.pending := rfl
@[simp] theorem State.setSlot_port (i : SlotNo) (v : Slot) (q : PortId) : (s.setSlot i v).port q = s.port q := rfl
@[simp] theorem State.setSlot_side (i : SlotNo) (v : Slot) (q : CPort) : (s.setSlot i v).side q = s.side q := rfl
@[simp] theorem State.setSlot_entry (i : SlotNo) (v : Slot) (k : ResNo) : (s.setSlot i v).entry k = s.entry k := rfl
@[simp] theorem State.setSlot_record (i : SlotNo) (v : Slot) (k : ResNo) : (s.setSlot i v).record k = s.record k := rfl
@[simp] theorem State.setSlot_wait (i : SlotNo) (v : Slot) (k : WaitNo) : (s.setSlot i v).wait k = s.wait k := rfl
@[simp] theorem State.setSlot_alive (i : SlotNo) (v : Slot) : (s.setSlot i v).alive = s.alive := rfl
@[simp] theorem State.setSlot_serving (i : SlotNo) (v : Slot) : (s.setSlot i v).serving = s.serving := rfl

/-! ### setWait -/

@[simp] theorem State.setWait_powered (j : WaitNo) (w : WaitEntry) : (s.setWait j w).powered = s.powered := rfl
@[simp] theorem State.setWait_resetLow (j : WaitNo) (w : WaitEntry) : (s.setWait j w).resetLow = s.resetLow := rfl
@[simp] theorem State.setWait_part (j : WaitNo) (w : WaitEntry) : (s.setWait j w).part = s.part := rfl
@[simp] theorem State.setWait_epoch (j : WaitNo) (w : WaitEntry) : (s.setWait j w).epoch = s.epoch := rfl
@[simp] theorem State.setWait_active (j : WaitNo) (w : WaitEntry) : (s.setWait j w).active = s.active := rfl
@[simp] theorem State.setWait_ports (j : WaitNo) (w : WaitEntry) : (s.setWait j w).ports = s.ports := rfl
@[simp] theorem State.setWait_sides (j : WaitNo) (w : WaitEntry) : (s.setWait j w).sides = s.sides := rfl
@[simp] theorem State.setWait_rotation (j : WaitNo) (w : WaitEntry) : (s.setWait j w).rotation = s.rotation := rfl
@[simp] theorem State.setWait_engine (j : WaitNo) (w : WaitEntry) : (s.setWait j w).engine = s.engine := rfl
@[simp] theorem State.setWait_entries (j : WaitNo) (w : WaitEntry) : (s.setWait j w).entries = s.entries := rfl
@[simp] theorem State.setWait_records (j : WaitNo) (w : WaitEntry) : (s.setWait j w).records = s.records := rfl
@[simp] theorem State.setWait_activations (j : WaitNo) (w : WaitEntry) : (s.setWait j w).activations = s.activations := rfl
@[simp] theorem State.setWait_slots (j : WaitNo) (w : WaitEntry) : (s.setWait j w).slots = s.slots := rfl
@[simp] theorem State.setWait_prescale (j : WaitNo) (w : WaitEntry) : (s.setWait j w).prescale = s.prescale := rfl
@[simp] theorem State.setWait_run (j : WaitNo) (w : WaitEntry) : (s.setWait j w).run = s.run := rfl
@[simp] theorem State.setWait_divider (j : WaitNo) (w : WaitEntry) : (s.setWait j w).divider = s.divider := rfl
@[simp] theorem State.setWait_leaseTicks (j : WaitNo) (w : WaitEntry) : (s.setWait j w).leaseTicks = s.leaseTicks := rfl
@[simp] theorem State.setWait_waitTicks (j : WaitNo) (w : WaitEntry) : (s.setWait j w).waitTicks = s.waitTicks := rfl
@[simp] theorem State.setWait_upgradeTicks (j : WaitNo) (w : WaitEntry) : (s.setWait j w).upgradeTicks = s.upgradeTicks := rfl
@[simp] theorem State.setWait_store (j : WaitNo) (w : WaitEntry) : (s.setWait j w).store = s.store := rfl
@[simp] theorem State.setWait_array (j : WaitNo) (w : WaitEntry) : (s.setWait j w).array = s.array := rfl
@[simp] theorem State.setWait_pending (j : WaitNo) (w : WaitEntry) : (s.setWait j w).pending = s.pending := rfl
@[simp] theorem State.setWait_port (j : WaitNo) (w : WaitEntry) (q : PortId) : (s.setWait j w).port q = s.port q := rfl
@[simp] theorem State.setWait_side (j : WaitNo) (w : WaitEntry) (q : CPort) : (s.setWait j w).side q = s.side q := rfl
@[simp] theorem State.setWait_entry (j : WaitNo) (w : WaitEntry) (k : ResNo) : (s.setWait j w).entry k = s.entry k := rfl
@[simp] theorem State.setWait_record (j : WaitNo) (w : WaitEntry) (k : ResNo) : (s.setWait j w).record k = s.record k := rfl
@[simp] theorem State.setWait_slot (j : WaitNo) (w : WaitEntry) (k : SlotNo) : (s.setWait j w).slot k = s.slot k := rfl
@[simp] theorem State.setWait_alive (j : WaitNo) (w : WaitEntry) : (s.setWait j w).alive = s.alive := rfl
@[simp] theorem State.setWait_serving (j : WaitNo) (w : WaitEntry) : (s.setWait j w).serving = s.serving := rfl

/-! ### setStore -/

@[simp] theorem State.setStore_powered (x : Store) : (s.setStore x).powered = s.powered := rfl
@[simp] theorem State.setStore_resetLow (x : Store) : (s.setStore x).resetLow = s.resetLow := rfl
@[simp] theorem State.setStore_part (x : Store) : (s.setStore x).part = s.part := rfl
@[simp] theorem State.setStore_epoch (x : Store) : (s.setStore x).epoch = s.epoch := rfl
@[simp] theorem State.setStore_active (x : Store) : (s.setStore x).active = s.active := rfl
@[simp] theorem State.setStore_ports (x : Store) : (s.setStore x).ports = s.ports := rfl
@[simp] theorem State.setStore_sides (x : Store) : (s.setStore x).sides = s.sides := rfl
@[simp] theorem State.setStore_rotation (x : Store) : (s.setStore x).rotation = s.rotation := rfl
@[simp] theorem State.setStore_engine (x : Store) : (s.setStore x).engine = s.engine := rfl
@[simp] theorem State.setStore_entries (x : Store) : (s.setStore x).entries = s.entries := rfl
@[simp] theorem State.setStore_records (x : Store) : (s.setStore x).records = s.records := rfl
@[simp] theorem State.setStore_activations (x : Store) : (s.setStore x).activations = s.activations := rfl
@[simp] theorem State.setStore_slots (x : Store) : (s.setStore x).slots = s.slots := rfl
@[simp] theorem State.setStore_waits (x : Store) : (s.setStore x).waits = s.waits := rfl
@[simp] theorem State.setStore_prescale (x : Store) : (s.setStore x).prescale = s.prescale := rfl
@[simp] theorem State.setStore_run (x : Store) : (s.setStore x).run = s.run := rfl
@[simp] theorem State.setStore_divider (x : Store) : (s.setStore x).divider = s.divider := rfl
@[simp] theorem State.setStore_leaseTicks (x : Store) : (s.setStore x).leaseTicks = s.leaseTicks := rfl
@[simp] theorem State.setStore_waitTicks (x : Store) : (s.setStore x).waitTicks = s.waitTicks := rfl
@[simp] theorem State.setStore_upgradeTicks (x : Store) : (s.setStore x).upgradeTicks = s.upgradeTicks := rfl
@[simp] theorem State.setStore_array (x : Store) : (s.setStore x).array = s.array := rfl
@[simp] theorem State.setStore_pending (x : Store) : (s.setStore x).pending = s.pending := rfl
@[simp] theorem State.setStore_port (x : Store) (q : PortId) : (s.setStore x).port q = s.port q := rfl
@[simp] theorem State.setStore_side (x : Store) (q : CPort) : (s.setStore x).side q = s.side q := rfl
@[simp] theorem State.setStore_entry (x : Store) (k : ResNo) : (s.setStore x).entry k = s.entry k := rfl
@[simp] theorem State.setStore_record (x : Store) (k : ResNo) : (s.setStore x).record k = s.record k := rfl
@[simp] theorem State.setStore_slot (x : Store) (k : SlotNo) : (s.setStore x).slot k = s.slot k := rfl
@[simp] theorem State.setStore_wait (x : Store) (k : WaitNo) : (s.setStore x).wait k = s.wait k := rfl
@[simp] theorem State.setStore_alive (x : Store) : (s.setStore x).alive = s.alive := rfl
@[simp] theorem State.setStore_serving (x : Store) : (s.setStore x).serving = s.serving := rfl

/-! ### setActivations -/

@[simp] theorem State.setActivations_powered (l : List Activation) : (s.setActivations l).powered = s.powered := rfl
@[simp] theorem State.setActivations_resetLow (l : List Activation) : (s.setActivations l).resetLow = s.resetLow := rfl
@[simp] theorem State.setActivations_part (l : List Activation) : (s.setActivations l).part = s.part := rfl
@[simp] theorem State.setActivations_epoch (l : List Activation) : (s.setActivations l).epoch = s.epoch := rfl
@[simp] theorem State.setActivations_active (l : List Activation) : (s.setActivations l).active = s.active := rfl
@[simp] theorem State.setActivations_ports (l : List Activation) : (s.setActivations l).ports = s.ports := rfl
@[simp] theorem State.setActivations_sides (l : List Activation) : (s.setActivations l).sides = s.sides := rfl
@[simp] theorem State.setActivations_rotation (l : List Activation) : (s.setActivations l).rotation = s.rotation := rfl
@[simp] theorem State.setActivations_engine (l : List Activation) : (s.setActivations l).engine = s.engine := rfl
@[simp] theorem State.setActivations_entries (l : List Activation) : (s.setActivations l).entries = s.entries := rfl
@[simp] theorem State.setActivations_records (l : List Activation) : (s.setActivations l).records = s.records := rfl
@[simp] theorem State.setActivations_slots (l : List Activation) : (s.setActivations l).slots = s.slots := rfl
@[simp] theorem State.setActivations_waits (l : List Activation) : (s.setActivations l).waits = s.waits := rfl
@[simp] theorem State.setActivations_prescale (l : List Activation) : (s.setActivations l).prescale = s.prescale := rfl
@[simp] theorem State.setActivations_run (l : List Activation) : (s.setActivations l).run = s.run := rfl
@[simp] theorem State.setActivations_divider (l : List Activation) : (s.setActivations l).divider = s.divider := rfl
@[simp] theorem State.setActivations_leaseTicks (l : List Activation) : (s.setActivations l).leaseTicks = s.leaseTicks := rfl
@[simp] theorem State.setActivations_waitTicks (l : List Activation) : (s.setActivations l).waitTicks = s.waitTicks := rfl
@[simp] theorem State.setActivations_upgradeTicks (l : List Activation) : (s.setActivations l).upgradeTicks = s.upgradeTicks := rfl
@[simp] theorem State.setActivations_store (l : List Activation) : (s.setActivations l).store = s.store := rfl
@[simp] theorem State.setActivations_array (l : List Activation) : (s.setActivations l).array = s.array := rfl
@[simp] theorem State.setActivations_pending (l : List Activation) : (s.setActivations l).pending = s.pending := rfl
@[simp] theorem State.setActivations_port (l : List Activation) (q : PortId) : (s.setActivations l).port q = s.port q := rfl
@[simp] theorem State.setActivations_side (l : List Activation) (q : CPort) : (s.setActivations l).side q = s.side q := rfl
@[simp] theorem State.setActivations_entry (l : List Activation) (k : ResNo) : (s.setActivations l).entry k = s.entry k := rfl
@[simp] theorem State.setActivations_record (l : List Activation) (k : ResNo) : (s.setActivations l).record k = s.record k := rfl
@[simp] theorem State.setActivations_slot (l : List Activation) (k : SlotNo) : (s.setActivations l).slot k = s.slot k := rfl
@[simp] theorem State.setActivations_wait (l : List Activation) (k : WaitNo) : (s.setActivations l).wait k = s.wait k := rfl
@[simp] theorem State.setActivations_alive (l : List Activation) : (s.setActivations l).alive = s.alive := rfl
@[simp] theorem State.setActivations_serving (l : List Activation) : (s.setActivations l).serving = s.serving := rfl

/-! ### setEngine -/

@[simp] theorem State.setEngine_powered (r : Option Request) : (s.setEngine r).powered = s.powered := rfl
@[simp] theorem State.setEngine_resetLow (r : Option Request) : (s.setEngine r).resetLow = s.resetLow := rfl
@[simp] theorem State.setEngine_part (r : Option Request) : (s.setEngine r).part = s.part := rfl
@[simp] theorem State.setEngine_epoch (r : Option Request) : (s.setEngine r).epoch = s.epoch := rfl
@[simp] theorem State.setEngine_active (r : Option Request) : (s.setEngine r).active = s.active := rfl
@[simp] theorem State.setEngine_ports (r : Option Request) : (s.setEngine r).ports = s.ports := rfl
@[simp] theorem State.setEngine_sides (r : Option Request) : (s.setEngine r).sides = s.sides := rfl
@[simp] theorem State.setEngine_rotation (r : Option Request) : (s.setEngine r).rotation = s.rotation := rfl
@[simp] theorem State.setEngine_entries (r : Option Request) : (s.setEngine r).entries = s.entries := rfl
@[simp] theorem State.setEngine_records (r : Option Request) : (s.setEngine r).records = s.records := rfl
@[simp] theorem State.setEngine_activations (r : Option Request) : (s.setEngine r).activations = s.activations := rfl
@[simp] theorem State.setEngine_slots (r : Option Request) : (s.setEngine r).slots = s.slots := rfl
@[simp] theorem State.setEngine_waits (r : Option Request) : (s.setEngine r).waits = s.waits := rfl
@[simp] theorem State.setEngine_prescale (r : Option Request) : (s.setEngine r).prescale = s.prescale := rfl
@[simp] theorem State.setEngine_run (r : Option Request) : (s.setEngine r).run = s.run := rfl
@[simp] theorem State.setEngine_divider (r : Option Request) : (s.setEngine r).divider = s.divider := rfl
@[simp] theorem State.setEngine_leaseTicks (r : Option Request) : (s.setEngine r).leaseTicks = s.leaseTicks := rfl
@[simp] theorem State.setEngine_waitTicks (r : Option Request) : (s.setEngine r).waitTicks = s.waitTicks := rfl
@[simp] theorem State.setEngine_upgradeTicks (r : Option Request) : (s.setEngine r).upgradeTicks = s.upgradeTicks := rfl
@[simp] theorem State.setEngine_store (r : Option Request) : (s.setEngine r).store = s.store := rfl
@[simp] theorem State.setEngine_array (r : Option Request) : (s.setEngine r).array = s.array := rfl
@[simp] theorem State.setEngine_pending (r : Option Request) : (s.setEngine r).pending = s.pending := rfl
@[simp] theorem State.setEngine_port (r : Option Request) (q : PortId) : (s.setEngine r).port q = s.port q := rfl
@[simp] theorem State.setEngine_side (r : Option Request) (q : CPort) : (s.setEngine r).side q = s.side q := rfl
@[simp] theorem State.setEngine_entry (r : Option Request) (k : ResNo) : (s.setEngine r).entry k = s.entry k := rfl
@[simp] theorem State.setEngine_record (r : Option Request) (k : ResNo) : (s.setEngine r).record k = s.record k := rfl
@[simp] theorem State.setEngine_slot (r : Option Request) (k : SlotNo) : (s.setEngine r).slot k = s.slot k := rfl
@[simp] theorem State.setEngine_wait (r : Option Request) (k : WaitNo) : (s.setEngine r).wait k = s.wait k := rfl
@[simp] theorem State.setEngine_alive (r : Option Request) : (s.setEngine r).alive = s.alive := rfl
@[simp] theorem State.setEngine_serving (r : Option Request) : (s.setEngine r).serving = s.serving := rfl

/-! ### setBody -/

@[simp] theorem State.setBody_powered (i : SlotNo) (b : SlotBody) : (s.setBody i b).powered = s.powered := rfl
@[simp] theorem State.setBody_resetLow (i : SlotNo) (b : SlotBody) : (s.setBody i b).resetLow = s.resetLow := rfl
@[simp] theorem State.setBody_part (i : SlotNo) (b : SlotBody) : (s.setBody i b).part = s.part := rfl
@[simp] theorem State.setBody_epoch (i : SlotNo) (b : SlotBody) : (s.setBody i b).epoch = s.epoch := rfl
@[simp] theorem State.setBody_active (i : SlotNo) (b : SlotBody) : (s.setBody i b).active = s.active := rfl
@[simp] theorem State.setBody_ports (i : SlotNo) (b : SlotBody) : (s.setBody i b).ports = s.ports := rfl
@[simp] theorem State.setBody_sides (i : SlotNo) (b : SlotBody) : (s.setBody i b).sides = s.sides := rfl
@[simp] theorem State.setBody_rotation (i : SlotNo) (b : SlotBody) : (s.setBody i b).rotation = s.rotation := rfl
@[simp] theorem State.setBody_engine (i : SlotNo) (b : SlotBody) : (s.setBody i b).engine = s.engine := rfl
@[simp] theorem State.setBody_entries (i : SlotNo) (b : SlotBody) : (s.setBody i b).entries = s.entries := rfl
@[simp] theorem State.setBody_records (i : SlotNo) (b : SlotBody) : (s.setBody i b).records = s.records := rfl
@[simp] theorem State.setBody_activations (i : SlotNo) (b : SlotBody) : (s.setBody i b).activations = s.activations := rfl
@[simp] theorem State.setBody_waits (i : SlotNo) (b : SlotBody) : (s.setBody i b).waits = s.waits := rfl
@[simp] theorem State.setBody_prescale (i : SlotNo) (b : SlotBody) : (s.setBody i b).prescale = s.prescale := rfl
@[simp] theorem State.setBody_run (i : SlotNo) (b : SlotBody) : (s.setBody i b).run = s.run := rfl
@[simp] theorem State.setBody_divider (i : SlotNo) (b : SlotBody) : (s.setBody i b).divider = s.divider := rfl
@[simp] theorem State.setBody_leaseTicks (i : SlotNo) (b : SlotBody) : (s.setBody i b).leaseTicks = s.leaseTicks := rfl
@[simp] theorem State.setBody_waitTicks (i : SlotNo) (b : SlotBody) : (s.setBody i b).waitTicks = s.waitTicks := rfl
@[simp] theorem State.setBody_upgradeTicks (i : SlotNo) (b : SlotBody) : (s.setBody i b).upgradeTicks = s.upgradeTicks := rfl
@[simp] theorem State.setBody_store (i : SlotNo) (b : SlotBody) : (s.setBody i b).store = s.store := rfl
@[simp] theorem State.setBody_array (i : SlotNo) (b : SlotBody) : (s.setBody i b).array = s.array := rfl
@[simp] theorem State.setBody_pending (i : SlotNo) (b : SlotBody) : (s.setBody i b).pending = s.pending := rfl
@[simp] theorem State.setBody_port (i : SlotNo) (b : SlotBody) (q : PortId) : (s.setBody i b).port q = s.port q := rfl
@[simp] theorem State.setBody_side (i : SlotNo) (b : SlotBody) (q : CPort) : (s.setBody i b).side q = s.side q := rfl
@[simp] theorem State.setBody_entry (i : SlotNo) (b : SlotBody) (k : ResNo) : (s.setBody i b).entry k = s.entry k := rfl
@[simp] theorem State.setBody_record (i : SlotNo) (b : SlotBody) (k : ResNo) : (s.setBody i b).record k = s.record k := rfl
@[simp] theorem State.setBody_wait (i : SlotNo) (b : SlotBody) (k : WaitNo) : (s.setBody i b).wait k = s.wait k := rfl
@[simp] theorem State.setBody_alive (i : SlotNo) (b : SlotBody) : (s.setBody i b).alive = s.alive := rfl
@[simp] theorem State.setBody_serving (i : SlotNo) (b : SlotBody) : (s.setBody i b).serving = s.serving := rfl

/-! ### freeSlot -/

@[simp] theorem State.freeSlot_powered (i : SlotNo) : (s.freeSlot i).powered = s.powered := rfl
@[simp] theorem State.freeSlot_resetLow (i : SlotNo) : (s.freeSlot i).resetLow = s.resetLow := rfl
@[simp] theorem State.freeSlot_part (i : SlotNo) : (s.freeSlot i).part = s.part := rfl
@[simp] theorem State.freeSlot_epoch (i : SlotNo) : (s.freeSlot i).epoch = s.epoch := rfl
@[simp] theorem State.freeSlot_active (i : SlotNo) : (s.freeSlot i).active = s.active := rfl
@[simp] theorem State.freeSlot_ports (i : SlotNo) : (s.freeSlot i).ports = s.ports := rfl
@[simp] theorem State.freeSlot_sides (i : SlotNo) : (s.freeSlot i).sides = s.sides := rfl
@[simp] theorem State.freeSlot_rotation (i : SlotNo) : (s.freeSlot i).rotation = s.rotation := rfl
@[simp] theorem State.freeSlot_engine (i : SlotNo) : (s.freeSlot i).engine = s.engine := rfl
@[simp] theorem State.freeSlot_entries (i : SlotNo) : (s.freeSlot i).entries = s.entries := rfl
@[simp] theorem State.freeSlot_records (i : SlotNo) : (s.freeSlot i).records = s.records := rfl
@[simp] theorem State.freeSlot_activations (i : SlotNo) : (s.freeSlot i).activations = s.activations := rfl
@[simp] theorem State.freeSlot_waits (i : SlotNo) : (s.freeSlot i).waits = s.waits := rfl
@[simp] theorem State.freeSlot_prescale (i : SlotNo) : (s.freeSlot i).prescale = s.prescale := rfl
@[simp] theorem State.freeSlot_run (i : SlotNo) : (s.freeSlot i).run = s.run := rfl
@[simp] theorem State.freeSlot_divider (i : SlotNo) : (s.freeSlot i).divider = s.divider := rfl
@[simp] theorem State.freeSlot_leaseTicks (i : SlotNo) : (s.freeSlot i).leaseTicks = s.leaseTicks := rfl
@[simp] theorem State.freeSlot_waitTicks (i : SlotNo) : (s.freeSlot i).waitTicks = s.waitTicks := rfl
@[simp] theorem State.freeSlot_upgradeTicks (i : SlotNo) : (s.freeSlot i).upgradeTicks = s.upgradeTicks := rfl
@[simp] theorem State.freeSlot_store (i : SlotNo) : (s.freeSlot i).store = s.store := rfl
@[simp] theorem State.freeSlot_array (i : SlotNo) : (s.freeSlot i).array = s.array := rfl
@[simp] theorem State.freeSlot_pending (i : SlotNo) : (s.freeSlot i).pending = s.pending := rfl
@[simp] theorem State.freeSlot_port (i : SlotNo) (q : PortId) : (s.freeSlot i).port q = s.port q := rfl
@[simp] theorem State.freeSlot_side (i : SlotNo) (q : CPort) : (s.freeSlot i).side q = s.side q := rfl
@[simp] theorem State.freeSlot_entry (i : SlotNo) (k : ResNo) : (s.freeSlot i).entry k = s.entry k := rfl
@[simp] theorem State.freeSlot_record (i : SlotNo) (k : ResNo) : (s.freeSlot i).record k = s.record k := rfl
@[simp] theorem State.freeSlot_wait (i : SlotNo) (k : WaitNo) : (s.freeSlot i).wait k = s.wait k := rfl
@[simp] theorem State.freeSlot_alive (i : SlotNo) : (s.freeSlot i).alive = s.alive := rfl
@[simp] theorem State.freeSlot_serving (i : SlotNo) : (s.freeSlot i).serving = s.serving := rfl

/-! ### pushMessage -/

@[simp] theorem State.pushMessage_powered (p : PortId) (m : Message) : (s.pushMessage p m).powered = s.powered := rfl
@[simp] theorem State.pushMessage_resetLow (p : PortId) (m : Message) : (s.pushMessage p m).resetLow = s.resetLow := rfl
@[simp] theorem State.pushMessage_part (p : PortId) (m : Message) : (s.pushMessage p m).part = s.part := rfl
@[simp] theorem State.pushMessage_epoch (p : PortId) (m : Message) : (s.pushMessage p m).epoch = s.epoch := rfl
@[simp] theorem State.pushMessage_active (p : PortId) (m : Message) : (s.pushMessage p m).active = s.active := rfl
@[simp] theorem State.pushMessage_sides (p : PortId) (m : Message) : (s.pushMessage p m).sides = s.sides := rfl
@[simp] theorem State.pushMessage_rotation (p : PortId) (m : Message) : (s.pushMessage p m).rotation = s.rotation := rfl
@[simp] theorem State.pushMessage_engine (p : PortId) (m : Message) : (s.pushMessage p m).engine = s.engine := rfl
@[simp] theorem State.pushMessage_entries (p : PortId) (m : Message) : (s.pushMessage p m).entries = s.entries := rfl
@[simp] theorem State.pushMessage_records (p : PortId) (m : Message) : (s.pushMessage p m).records = s.records := rfl
@[simp] theorem State.pushMessage_activations (p : PortId) (m : Message) : (s.pushMessage p m).activations = s.activations := rfl
@[simp] theorem State.pushMessage_slots (p : PortId) (m : Message) : (s.pushMessage p m).slots = s.slots := rfl
@[simp] theorem State.pushMessage_waits (p : PortId) (m : Message) : (s.pushMessage p m).waits = s.waits := rfl
@[simp] theorem State.pushMessage_prescale (p : PortId) (m : Message) : (s.pushMessage p m).prescale = s.prescale := rfl
@[simp] theorem State.pushMessage_run (p : PortId) (m : Message) : (s.pushMessage p m).run = s.run := rfl
@[simp] theorem State.pushMessage_divider (p : PortId) (m : Message) : (s.pushMessage p m).divider = s.divider := rfl
@[simp] theorem State.pushMessage_leaseTicks (p : PortId) (m : Message) : (s.pushMessage p m).leaseTicks = s.leaseTicks := rfl
@[simp] theorem State.pushMessage_waitTicks (p : PortId) (m : Message) : (s.pushMessage p m).waitTicks = s.waitTicks := rfl
@[simp] theorem State.pushMessage_upgradeTicks (p : PortId) (m : Message) : (s.pushMessage p m).upgradeTicks = s.upgradeTicks := rfl
@[simp] theorem State.pushMessage_store (p : PortId) (m : Message) : (s.pushMessage p m).store = s.store := rfl
@[simp] theorem State.pushMessage_array (p : PortId) (m : Message) : (s.pushMessage p m).array = s.array := rfl
@[simp] theorem State.pushMessage_pending (p : PortId) (m : Message) : (s.pushMessage p m).pending = s.pending := rfl
@[simp] theorem State.pushMessage_side (p : PortId) (m : Message) (q : CPort) : (s.pushMessage p m).side q = s.side q := rfl
@[simp] theorem State.pushMessage_entry (p : PortId) (m : Message) (k : ResNo) : (s.pushMessage p m).entry k = s.entry k := rfl
@[simp] theorem State.pushMessage_record (p : PortId) (m : Message) (k : ResNo) : (s.pushMessage p m).record k = s.record k := rfl
@[simp] theorem State.pushMessage_slot (p : PortId) (m : Message) (k : SlotNo) : (s.pushMessage p m).slot k = s.slot k := rfl
@[simp] theorem State.pushMessage_wait (p : PortId) (m : Message) (k : WaitNo) : (s.pushMessage p m).wait k = s.wait k := rfl
@[simp] theorem State.pushMessage_alive (p : PortId) (m : Message) : (s.pushMessage p m).alive = s.alive := rfl
@[simp] theorem State.pushMessage_serving (p : PortId) (m : Message) : (s.pushMessage p m).serving = s.serving := rfl

/-! ### setOwed -/

@[simp] theorem State.setOwed_powered (i : SlotNo) (o : Option Owed) : (s.setOwed i o).powered = s.powered := rfl
@[simp] theorem State.setOwed_resetLow (i : SlotNo) (o : Option Owed) : (s.setOwed i o).resetLow = s.resetLow := rfl
@[simp] theorem State.setOwed_part (i : SlotNo) (o : Option Owed) : (s.setOwed i o).part = s.part := rfl
@[simp] theorem State.setOwed_epoch (i : SlotNo) (o : Option Owed) : (s.setOwed i o).epoch = s.epoch := rfl
@[simp] theorem State.setOwed_active (i : SlotNo) (o : Option Owed) : (s.setOwed i o).active = s.active := rfl
@[simp] theorem State.setOwed_ports (i : SlotNo) (o : Option Owed) : (s.setOwed i o).ports = s.ports := rfl
@[simp] theorem State.setOwed_sides (i : SlotNo) (o : Option Owed) : (s.setOwed i o).sides = s.sides := rfl
@[simp] theorem State.setOwed_rotation (i : SlotNo) (o : Option Owed) : (s.setOwed i o).rotation = s.rotation := rfl
@[simp] theorem State.setOwed_engine (i : SlotNo) (o : Option Owed) : (s.setOwed i o).engine = s.engine := rfl
@[simp] theorem State.setOwed_entries (i : SlotNo) (o : Option Owed) : (s.setOwed i o).entries = s.entries := rfl
@[simp] theorem State.setOwed_records (i : SlotNo) (o : Option Owed) : (s.setOwed i o).records = s.records := rfl
@[simp] theorem State.setOwed_activations (i : SlotNo) (o : Option Owed) : (s.setOwed i o).activations = s.activations := rfl
@[simp] theorem State.setOwed_waits (i : SlotNo) (o : Option Owed) : (s.setOwed i o).waits = s.waits := rfl
@[simp] theorem State.setOwed_prescale (i : SlotNo) (o : Option Owed) : (s.setOwed i o).prescale = s.prescale := rfl
@[simp] theorem State.setOwed_run (i : SlotNo) (o : Option Owed) : (s.setOwed i o).run = s.run := rfl
@[simp] theorem State.setOwed_divider (i : SlotNo) (o : Option Owed) : (s.setOwed i o).divider = s.divider := rfl
@[simp] theorem State.setOwed_leaseTicks (i : SlotNo) (o : Option Owed) : (s.setOwed i o).leaseTicks = s.leaseTicks := rfl
@[simp] theorem State.setOwed_waitTicks (i : SlotNo) (o : Option Owed) : (s.setOwed i o).waitTicks = s.waitTicks := rfl
@[simp] theorem State.setOwed_upgradeTicks (i : SlotNo) (o : Option Owed) : (s.setOwed i o).upgradeTicks = s.upgradeTicks := rfl
@[simp] theorem State.setOwed_store (i : SlotNo) (o : Option Owed) : (s.setOwed i o).store = s.store := rfl
@[simp] theorem State.setOwed_array (i : SlotNo) (o : Option Owed) : (s.setOwed i o).array = s.array := rfl
@[simp] theorem State.setOwed_pending (i : SlotNo) (o : Option Owed) : (s.setOwed i o).pending = s.pending := rfl
@[simp] theorem State.setOwed_port (i : SlotNo) (o : Option Owed) (q : PortId) : (s.setOwed i o).port q = s.port q := rfl
@[simp] theorem State.setOwed_side (i : SlotNo) (o : Option Owed) (q : CPort) : (s.setOwed i o).side q = s.side q := rfl
@[simp] theorem State.setOwed_entry (i : SlotNo) (o : Option Owed) (k : ResNo) : (s.setOwed i o).entry k = s.entry k := rfl
@[simp] theorem State.setOwed_record (i : SlotNo) (o : Option Owed) (k : ResNo) : (s.setOwed i o).record k = s.record k := rfl
@[simp] theorem State.setOwed_wait (i : SlotNo) (o : Option Owed) (k : WaitNo) : (s.setOwed i o).wait k = s.wait k := rfl
@[simp] theorem State.setOwed_alive (i : SlotNo) (o : Option Owed) : (s.setOwed i o).alive = s.alive := rfl
@[simp] theorem State.setOwed_serving (i : SlotNo) (o : Option Owed) : (s.setOwed i o).serving = s.serving := rfl

/-! ### joinOwed -/

@[simp] theorem State.joinOwed_powered (p : CPort) (r : Ref) : (s.joinOwed p r).powered = s.powered := rfl
@[simp] theorem State.joinOwed_resetLow (p : CPort) (r : Ref) : (s.joinOwed p r).resetLow = s.resetLow := rfl
@[simp] theorem State.joinOwed_part (p : CPort) (r : Ref) : (s.joinOwed p r).part = s.part := rfl
@[simp] theorem State.joinOwed_epoch (p : CPort) (r : Ref) : (s.joinOwed p r).epoch = s.epoch := rfl
@[simp] theorem State.joinOwed_active (p : CPort) (r : Ref) : (s.joinOwed p r).active = s.active := rfl
@[simp] theorem State.joinOwed_ports (p : CPort) (r : Ref) : (s.joinOwed p r).ports = s.ports := rfl
@[simp] theorem State.joinOwed_rotation (p : CPort) (r : Ref) : (s.joinOwed p r).rotation = s.rotation := rfl
@[simp] theorem State.joinOwed_engine (p : CPort) (r : Ref) : (s.joinOwed p r).engine = s.engine := rfl
@[simp] theorem State.joinOwed_entries (p : CPort) (r : Ref) : (s.joinOwed p r).entries = s.entries := rfl
@[simp] theorem State.joinOwed_records (p : CPort) (r : Ref) : (s.joinOwed p r).records = s.records := rfl
@[simp] theorem State.joinOwed_activations (p : CPort) (r : Ref) : (s.joinOwed p r).activations = s.activations := rfl
@[simp] theorem State.joinOwed_slots (p : CPort) (r : Ref) : (s.joinOwed p r).slots = s.slots := rfl
@[simp] theorem State.joinOwed_waits (p : CPort) (r : Ref) : (s.joinOwed p r).waits = s.waits := rfl
@[simp] theorem State.joinOwed_prescale (p : CPort) (r : Ref) : (s.joinOwed p r).prescale = s.prescale := rfl
@[simp] theorem State.joinOwed_run (p : CPort) (r : Ref) : (s.joinOwed p r).run = s.run := rfl
@[simp] theorem State.joinOwed_divider (p : CPort) (r : Ref) : (s.joinOwed p r).divider = s.divider := rfl
@[simp] theorem State.joinOwed_leaseTicks (p : CPort) (r : Ref) : (s.joinOwed p r).leaseTicks = s.leaseTicks := rfl
@[simp] theorem State.joinOwed_waitTicks (p : CPort) (r : Ref) : (s.joinOwed p r).waitTicks = s.waitTicks := rfl
@[simp] theorem State.joinOwed_upgradeTicks (p : CPort) (r : Ref) : (s.joinOwed p r).upgradeTicks = s.upgradeTicks := rfl
@[simp] theorem State.joinOwed_store (p : CPort) (r : Ref) : (s.joinOwed p r).store = s.store := rfl
@[simp] theorem State.joinOwed_array (p : CPort) (r : Ref) : (s.joinOwed p r).array = s.array := rfl
@[simp] theorem State.joinOwed_pending (p : CPort) (r : Ref) : (s.joinOwed p r).pending = s.pending := rfl
@[simp] theorem State.joinOwed_port (p : CPort) (r : Ref) (q : PortId) : (s.joinOwed p r).port q = s.port q := rfl
@[simp] theorem State.joinOwed_entry (p : CPort) (r : Ref) (k : ResNo) : (s.joinOwed p r).entry k = s.entry k := rfl
@[simp] theorem State.joinOwed_record (p : CPort) (r : Ref) (k : ResNo) : (s.joinOwed p r).record k = s.record k := rfl
@[simp] theorem State.joinOwed_slot (p : CPort) (r : Ref) (k : SlotNo) : (s.joinOwed p r).slot k = s.slot k := rfl
@[simp] theorem State.joinOwed_wait (p : CPort) (r : Ref) (k : WaitNo) : (s.joinOwed p r).wait k = s.wait k := rfl
@[simp] theorem State.joinOwed_alive (p : CPort) (r : Ref) : (s.joinOwed p r).alive = s.alive := rfl
@[simp] theorem State.joinOwed_serving (p : CPort) (r : Ref) : (s.joinOwed p r).serving = s.serving := rfl

/-! ### leaveOwed -/

@[simp] theorem State.leaveOwed_powered (p : CPort) (r : Ref) : (s.leaveOwed p r).powered = s.powered := rfl
@[simp] theorem State.leaveOwed_resetLow (p : CPort) (r : Ref) : (s.leaveOwed p r).resetLow = s.resetLow := rfl
@[simp] theorem State.leaveOwed_part (p : CPort) (r : Ref) : (s.leaveOwed p r).part = s.part := rfl
@[simp] theorem State.leaveOwed_epoch (p : CPort) (r : Ref) : (s.leaveOwed p r).epoch = s.epoch := rfl
@[simp] theorem State.leaveOwed_active (p : CPort) (r : Ref) : (s.leaveOwed p r).active = s.active := rfl
@[simp] theorem State.leaveOwed_ports (p : CPort) (r : Ref) : (s.leaveOwed p r).ports = s.ports := rfl
@[simp] theorem State.leaveOwed_rotation (p : CPort) (r : Ref) : (s.leaveOwed p r).rotation = s.rotation := rfl
@[simp] theorem State.leaveOwed_engine (p : CPort) (r : Ref) : (s.leaveOwed p r).engine = s.engine := rfl
@[simp] theorem State.leaveOwed_entries (p : CPort) (r : Ref) : (s.leaveOwed p r).entries = s.entries := rfl
@[simp] theorem State.leaveOwed_records (p : CPort) (r : Ref) : (s.leaveOwed p r).records = s.records := rfl
@[simp] theorem State.leaveOwed_activations (p : CPort) (r : Ref) : (s.leaveOwed p r).activations = s.activations := rfl
@[simp] theorem State.leaveOwed_slots (p : CPort) (r : Ref) : (s.leaveOwed p r).slots = s.slots := rfl
@[simp] theorem State.leaveOwed_waits (p : CPort) (r : Ref) : (s.leaveOwed p r).waits = s.waits := rfl
@[simp] theorem State.leaveOwed_prescale (p : CPort) (r : Ref) : (s.leaveOwed p r).prescale = s.prescale := rfl
@[simp] theorem State.leaveOwed_run (p : CPort) (r : Ref) : (s.leaveOwed p r).run = s.run := rfl
@[simp] theorem State.leaveOwed_divider (p : CPort) (r : Ref) : (s.leaveOwed p r).divider = s.divider := rfl
@[simp] theorem State.leaveOwed_leaseTicks (p : CPort) (r : Ref) : (s.leaveOwed p r).leaseTicks = s.leaseTicks := rfl
@[simp] theorem State.leaveOwed_waitTicks (p : CPort) (r : Ref) : (s.leaveOwed p r).waitTicks = s.waitTicks := rfl
@[simp] theorem State.leaveOwed_upgradeTicks (p : CPort) (r : Ref) : (s.leaveOwed p r).upgradeTicks = s.upgradeTicks := rfl
@[simp] theorem State.leaveOwed_store (p : CPort) (r : Ref) : (s.leaveOwed p r).store = s.store := rfl
@[simp] theorem State.leaveOwed_array (p : CPort) (r : Ref) : (s.leaveOwed p r).array = s.array := rfl
@[simp] theorem State.leaveOwed_pending (p : CPort) (r : Ref) : (s.leaveOwed p r).pending = s.pending := rfl
@[simp] theorem State.leaveOwed_port (p : CPort) (r : Ref) (q : PortId) : (s.leaveOwed p r).port q = s.port q := rfl
@[simp] theorem State.leaveOwed_entry (p : CPort) (r : Ref) (k : ResNo) : (s.leaveOwed p r).entry k = s.entry k := rfl
@[simp] theorem State.leaveOwed_record (p : CPort) (r : Ref) (k : ResNo) : (s.leaveOwed p r).record k = s.record k := rfl
@[simp] theorem State.leaveOwed_slot (p : CPort) (r : Ref) (k : SlotNo) : (s.leaveOwed p r).slot k = s.slot k := rfl
@[simp] theorem State.leaveOwed_wait (p : CPort) (r : Ref) (k : WaitNo) : (s.leaveOwed p r).wait k = s.wait k := rfl
@[simp] theorem State.leaveOwed_alive (p : CPort) (r : Ref) : (s.leaveOwed p r).alive = s.alive := rfl
@[simp] theorem State.leaveOwed_serving (p : CPort) (r : Ref) : (s.leaveOwed p r).serving = s.serving := rfl

/-! ### placeResponse -/

@[simp] theorem State.placeResponse_powered (p : PortId) (m : Message) : (s.placeResponse p m).powered = s.powered := rfl
@[simp] theorem State.placeResponse_resetLow (p : PortId) (m : Message) : (s.placeResponse p m).resetLow = s.resetLow := rfl
@[simp] theorem State.placeResponse_part (p : PortId) (m : Message) : (s.placeResponse p m).part = s.part := rfl
@[simp] theorem State.placeResponse_epoch (p : PortId) (m : Message) : (s.placeResponse p m).epoch = s.epoch := rfl
@[simp] theorem State.placeResponse_active (p : PortId) (m : Message) : (s.placeResponse p m).active = s.active := rfl
@[simp] theorem State.placeResponse_sides (p : PortId) (m : Message) : (s.placeResponse p m).sides = s.sides := rfl
@[simp] theorem State.placeResponse_rotation (p : PortId) (m : Message) : (s.placeResponse p m).rotation = s.rotation := rfl
@[simp] theorem State.placeResponse_entries (p : PortId) (m : Message) : (s.placeResponse p m).entries = s.entries := rfl
@[simp] theorem State.placeResponse_records (p : PortId) (m : Message) : (s.placeResponse p m).records = s.records := rfl
@[simp] theorem State.placeResponse_activations (p : PortId) (m : Message) : (s.placeResponse p m).activations = s.activations := rfl
@[simp] theorem State.placeResponse_slots (p : PortId) (m : Message) : (s.placeResponse p m).slots = s.slots := rfl
@[simp] theorem State.placeResponse_waits (p : PortId) (m : Message) : (s.placeResponse p m).waits = s.waits := rfl
@[simp] theorem State.placeResponse_prescale (p : PortId) (m : Message) : (s.placeResponse p m).prescale = s.prescale := rfl
@[simp] theorem State.placeResponse_run (p : PortId) (m : Message) : (s.placeResponse p m).run = s.run := rfl
@[simp] theorem State.placeResponse_divider (p : PortId) (m : Message) : (s.placeResponse p m).divider = s.divider := rfl
@[simp] theorem State.placeResponse_leaseTicks (p : PortId) (m : Message) : (s.placeResponse p m).leaseTicks = s.leaseTicks := rfl
@[simp] theorem State.placeResponse_waitTicks (p : PortId) (m : Message) : (s.placeResponse p m).waitTicks = s.waitTicks := rfl
@[simp] theorem State.placeResponse_upgradeTicks (p : PortId) (m : Message) : (s.placeResponse p m).upgradeTicks = s.upgradeTicks := rfl
@[simp] theorem State.placeResponse_store (p : PortId) (m : Message) : (s.placeResponse p m).store = s.store := rfl
@[simp] theorem State.placeResponse_array (p : PortId) (m : Message) : (s.placeResponse p m).array = s.array := rfl
@[simp] theorem State.placeResponse_pending (p : PortId) (m : Message) : (s.placeResponse p m).pending = s.pending := rfl
@[simp] theorem State.placeResponse_side (p : PortId) (m : Message) (q : CPort) : (s.placeResponse p m).side q = s.side q := rfl
@[simp] theorem State.placeResponse_entry (p : PortId) (m : Message) (k : ResNo) : (s.placeResponse p m).entry k = s.entry k := rfl
@[simp] theorem State.placeResponse_record (p : PortId) (m : Message) (k : ResNo) : (s.placeResponse p m).record k = s.record k := rfl
@[simp] theorem State.placeResponse_slot (p : PortId) (m : Message) (k : SlotNo) : (s.placeResponse p m).slot k = s.slot k := rfl
@[simp] theorem State.placeResponse_wait (p : PortId) (m : Message) (k : WaitNo) : (s.placeResponse p m).wait k = s.wait k := rfl
@[simp] theorem State.placeResponse_alive (p : PortId) (m : Message) : (s.placeResponse p m).alive = s.alive := rfl
@[simp] theorem State.placeResponse_serving (p : PortId) (m : Message) : (s.placeResponse p m).serving = s.serving := rfl

/-! ### What an update leaves -/

@[simp] theorem State.store_setStore (x : Store) : (s.setStore x).store = x := rfl
@[simp] theorem State.activations_setActivations (l : List Activation) :
    (s.setActivations l).activations = l := rfl
@[simp] theorem State.engine_setEngine (r : Option Request) : (s.setEngine r).engine = r := rfl

theorem PortId.index_inj {p q : PortId} (h : p.index = q.index) : p = q := by
  rcases p with (_ | _ | _ | _) | _ <;> rcases q with (_ | _ | _ | _) | _ <;> simp_all [PortId.index]

theorem CPort.index_inj {p q : CPort} (h : p.index = q.index) : p = q := by
  rcases p with _ | _ | _ | _ <;> rcases q with _ | _ | _ | _ <;> simp_all [CPort.index]

theorem Vector.get_set_of {α : Type} {n : Nat} (v : Vector α n) (i j : Fin n) (a : α) :
    (v.set i a).get j = if j = i then a else v.get j := by
  simp only [Vector.get_eq_getElem, Vector.getElem_set, Fin.ext_iff, eq_comm]

theorem State.port_setPort (p q : PortId) (u : PortUnit) :
    (s.setPort p u).port q = if q = p then u else s.port q := by
  simp only [State.port, State.setPort, Vector.get_set_of]
  by_cases h : q = p
  · simp [h]
  · have : q.index ≠ p.index := fun e => h (PortId.index_inj e)
    simp [h, this]

theorem State.side_setSide (p q : CPort) (v : ClientSide) :
    (s.setSide p v).side q = if q = p then v else s.side q := by
  simp only [State.side, State.setSide, Vector.get_set_of]
  by_cases h : q = p
  · simp [h]
  · have : q.index ≠ p.index := fun e => h (CPort.index_inj e)
    simp [h, this]

theorem State.entry_setEntry (n k : ResNo) (e : Entry) :
    (s.setEntry n e).entry k = if k = n then e else s.entry k := Vector.get_set_of ..

theorem State.record_setRecord (n k : ResNo) (r : Record) :
    (s.setRecord n r).record k = if k = n then r else s.record k := Vector.get_set_of ..

theorem State.slot_setSlot (i k : SlotNo) (v : Slot) :
    (s.setSlot i v).slot k = if k = i then v else s.slot k := Vector.get_set_of ..

theorem State.wait_setWait (j k : WaitNo) (w : WaitEntry) :
    (s.setWait j w).wait k = if k = j then w else s.wait k := Vector.get_set_of ..

theorem State.slot_setBody (i k : SlotNo) (b : SlotBody) :
    (s.setBody i b).slot k = if k = i then { s.slot i with body := b } else s.slot k :=
  State.slot_setSlot s i k _

theorem State.slot_freeSlot (i k : SlotNo) :
    (s.freeSlot i).slot k =
      if k = i then { generation := (s.slot i).generation + 1, body := .free } else s.slot k :=
  State.slot_setSlot s i k _

theorem State.slot_setOwed (i k : SlotNo) (o : Option Owed) :
    (s.setOwed i o).slot k =
      if k = i then { s.slot i with body := (s.slot i).body.mapLease fun l => { l with owed := o } }
      else s.slot k :=
  State.slot_setBody s i k _

theorem State.port_pushMessage (p q : PortId) (m : Message) :
    (s.pushMessage p m).port q =
      if q = p then { s.port p with queue := (s.port p).queue ++ [m] } else s.port q :=
  State.port_setPort s p q _

theorem State.side_joinOwed (p q : CPort) (r : Ref) :
    (s.joinOwed p r).side q =
      if q = p then { s.side p with owed := (s.side p).owed ++ [r] } else s.side q :=
  State.side_setSide s p q _

theorem State.side_leaveOwed (p q : CPort) (r : Ref) :
    (s.leaveOwed p r).side q =
      if q = p then { s.side p with owed := (s.side p).owed.erase r } else s.side q :=
  State.side_setSide s p q _

theorem State.port_placeResponse (p q : PortId) (m : Message) :
    (s.placeResponse p m).port q =
      if q = p then { s.port p with queue := (s.port p).queue ++ [m], reserved := false }
      else s.port q :=
  State.port_setPort s p q _

@[simp] theorem State.engine_placeResponse (p : PortId) (m : Message) :
    (s.placeResponse p m).engine = none := rfl

/-! ### Two updates of one place, and an update that changes nothing -/

theorem Vector.set_set_of {α : Type} {n : Nat} (v : Vector α n) (i : Fin n) (a b : α) :
    (v.set i a).set i b = v.set i b := by
  ext k hk; simp only [Vector.getElem_set]; split <;> rfl

theorem Vector.set_get_of {α : Type} {n : Nat} (v : Vector α n) (i : Fin n) : v.set i (v.get i) = v := by
  ext k hk; simp only [Vector.getElem_set, Vector.get_eq_getElem]; split
  · next h => subst h; rfl
  · rfl

theorem State.setPort_setPort (p : PortId) (u w : PortUnit) : (s.setPort p u).setPort p w = s.setPort p w := by
  simp only [State.setPort, Vector.set_set_of]

theorem State.setSide_setSide (p : CPort) (v w : ClientSide) : (s.setSide p v).setSide p w = s.setSide p w := by
  simp only [State.setSide, Vector.set_set_of]

theorem State.setRecord_setRecord (n : ResNo) (r w : Record) :
    (s.setRecord n r).setRecord n w = s.setRecord n w := by
  simp only [State.setRecord, Vector.set_set_of]

theorem State.setSlot_setSlot (i : SlotNo) (v w : Slot) : (s.setSlot i v).setSlot i w = s.setSlot i w := by
  simp only [State.setSlot, Vector.set_set_of]

theorem State.setWait_setWait (j : WaitNo) (v w : WaitEntry) :
    (s.setWait j v).setWait j w = s.setWait j w := by
  simp only [State.setWait, Vector.set_set_of]

theorem State.setPort_self (p : PortId) : s.setPort p (s.port p) = s := by
  simp only [State.setPort, State.port, Vector.set_get_of]

theorem State.setSide_self (p : CPort) : s.setSide p (s.side p) = s := by
  simp only [State.setSide, State.side, Vector.set_get_of]

theorem State.setRecord_self (n : ResNo) : s.setRecord n (s.record n) = s := by
  simp only [State.setRecord, State.record, Vector.set_get_of]

theorem State.setSlot_self (i : SlotNo) : s.setSlot i (s.slot i) = s := by
  simp only [State.setSlot, State.slot, Vector.set_get_of]

/-! ### A vector changed at every place -/

theorem vmap_get {α β : Type} {n : Nat} (f : α → β) (v : Vector α n) (i : Fin n) :
    (vmap f v).get i = f (v.get i) := by
  simp [vmap, Vector.get_eq_getElem]

/-! ### What reset holds -/

@[simp] theorem State.reset_record (n : ResNo) : State.reset.record n = Record.empty := by
  simp [State.record, State.reset, Vector.get_eq_getElem]

@[simp] theorem State.reset_slot (i : SlotNo) : State.reset.slot i = Slot.initial := by
  simp [State.slot, State.reset, Vector.get_eq_getElem]

@[simp] theorem State.reset_wait (j : WaitNo) : State.reset.wait j = .free := by
  simp [State.wait, State.reset, Vector.get_eq_getElem]

@[simp] theorem State.reset_entry (n : ResNo) : State.reset.entry n = .undefined := by
  simp [State.entry, State.reset, Vector.get_eq_getElem]

@[simp] theorem State.reset_port (p : PortId) : State.reset.port p = PortUnit.initial := by
  simp [State.port, State.reset, Vector.get_eq_getElem]

@[simp] theorem State.reset_side (p : CPort) : State.reset.side p = ClientSide.initial := by
  simp [State.side, State.reset, Vector.get_eq_getElem]

end Sys2Proof.Machine
end

