-- ==== Sys2Proof/Laws/Memory.lean ====
section
/-! SUPPORT. The array: what reading gives after writing and erasing, and that every operation keeps the
canonical form. -/

namespace Sys2Proof.Machine

/-! ### Reading and writing one byte -/

theorem Memory.read_below {m : List Host.Cell} {a : Nat} (h : ∀ c ∈ m, a < c.1) :
    Memory.read m a = Config.erased := by
  cases m with
  | nil => rfl
  | cons c t =>
    obtain ⟨k, v⟩ := c
    have hk : a < k := h (k, v) (by simp)
    simp [Memory.read, Nat.ne_of_lt hk, hk]

theorem Memory.sorted_tail {k : Nat} {v : Byte} {t : List Host.Cell}
    (h : (((k, v) :: t).map Prod.fst).Pairwise (· < ·)) :
    (t.map Prod.fst).Pairwise (· < ·) ∧ ∀ c ∈ t, k < c.1 := by
  simp only [List.map_cons, List.pairwise_cons, List.mem_map, forall_exists_index, and_imp,
    forall_apply_eq_imp_iff₂] at h
  exact ⟨h.2, h.1⟩

theorem Memory.mem_write {m : List Host.Cell} {a : Nat} {b : Byte} {c : Host.Cell}
    (h : c ∈ Memory.write m a b) : c ∈ m ∨ (c = (a, b) ∧ b ≠ Config.erased) := by
  induction m with
  | nil =>
    simp only [Memory.write] at h
    split at h <;> simp_all
  | cons d t ih =>
    obtain ⟨k, v⟩ := d
    simp only [Memory.write] at h
    split at h
    · split at h <;> simp_all ; tauto
    · split at h
      · split at h <;> simp_all ; tauto
      · rcases List.mem_cons.mp h with h | h
        · simp [h]
        · rcases ih h with h | h <;> simp_all

theorem Memory.write_sorted {m : List Host.Cell} {a : Nat} {b : Byte}
    (h : (m.map Prod.fst).Pairwise (· < ·)) : ((Memory.write m a b).map Prod.fst).Pairwise (· < ·) := by
  induction m with
  | nil => simp only [Memory.write]; split <;> simp
  | cons d t ih =>
    obtain ⟨k, v⟩ := d
    obtain ⟨ht, hk⟩ := Memory.sorted_tail h
    simp only [Memory.write]
    split
    · rename_i e
      split
      · exact ht
      · simp only [List.map_cons, List.pairwise_cons, List.mem_map, forall_exists_index, and_imp,
          forall_apply_eq_imp_iff₂]
        exact ⟨fun c hc => e ▸ hk c hc, ht⟩
    · split
      · rename_i e
        split
        · exact h
        · simp only [List.map_cons, List.pairwise_cons, List.mem_cons, List.mem_map,
            forall_eq_or_imp, forall_exists_index, and_imp, forall_apply_eq_imp_iff₂]
          exact ⟨⟨e, fun c hc => Nat.lt_trans e (hk c hc)⟩, hk, ht⟩
      · rename_i h1 h2
        simp only [List.map_cons, List.pairwise_cons, List.mem_map, forall_exists_index, and_imp,
          forall_apply_eq_imp_iff₂]
        refine ⟨fun c hc => ?_, ih ht⟩
        rcases Memory.mem_write hc with h | ⟨h, _⟩
        · exact hk c h
        · subst h; simp; omega

/-- Reading after a write. -/
theorem Memory.read_write {m : List Host.Cell} (h : (m.map Prod.fst).Pairwise (· < ·)) (a x : Nat)
    (b : Byte) : Memory.read (Memory.write m a b) x = if x = a then b else Memory.read m x := by
  induction m with
  | nil =>
    simp only [Memory.write]
    split
    · rename_i e; simp [Memory.read, e]
    · by_cases hx : x = a <;> simp [Memory.read, hx]
  | cons d t ih =>
    obtain ⟨k, v⟩ := d
    obtain ⟨ht, hk⟩ := Memory.sorted_tail h
    simp only [Memory.write]
    split
    · rename_i e
      subst e
      split
      · rename_i hb
        by_cases hx : x = a
        · subst hx; simp [Memory.read_below hk, hb]
        · simp only [if_neg hx, Memory.read]
          split
          · rename_i hlt; exact Memory.read_below fun c hc => Nat.lt_trans hlt (hk c hc)
          · rfl
      · by_cases hx : x = a <;> simp [Memory.read, hx]
    · rename_i hne
      split
      · rename_i hlt
        split
        · rename_i hb
          by_cases hx : x = a
          · subst hx; simp [Memory.read, hne, hlt, hb]
          · simp [hx]
        · by_cases hx : x = a
          · simp [Memory.read, hx]
          · simp only [if_neg hx, Memory.read]
            split
            · rename_i h1
              rw [if_neg (by omega), if_pos (by omega)]
            · rfl
      · rename_i hge
        simp only [Memory.read, ih ht]
        by_cases hx : x = a
        · subst hx; simp [hne, hge]
        · simp [hx]

/-- A write inside the array keeps the canonical form. -/
theorem Memory.write_wf {m : List Host.Cell} (h : Memory.wf m) {a : Nat} (ha : a < Memory.size) (b : Byte) :
    Memory.wf (Memory.write m a b) := by
  refine ⟨Memory.write_sorted h.1, fun c hc => ?_⟩
  rcases Memory.mem_write hc with hm | ⟨e, hb⟩
  · exact h.2 c hm
  · subst e; exact ⟨hb, ha⟩

/-- Two canonical memories that read alike are equal data. -/
theorem Memory.ext {m m' : List Host.Cell} (h : Memory.wf m) (h' : Memory.wf m')
    (e : ∀ a, Memory.read m a = Memory.read m' a) : m = m' := by
  induction m generalizing m' with
  | nil =>
    cases m' with
    | nil => rfl
    | cons c t =>
      obtain ⟨k, v⟩ := c
      have := e k
      simp only [Memory.read, if_true] at this
      exact absurd this.symm (h'.2 (k, v) (by simp)).1
  | cons c t ih =>
    obtain ⟨k, v⟩ := c
    obtain ⟨hs, hk⟩ := Memory.sorted_tail h.1
    have hv := (h.2 (k, v) (by simp)).1
    cases m' with
    | nil =>
      have := e k
      simp only [Memory.read, if_true] at this
      exact absurd this hv
    | cons c' t' =>
      obtain ⟨k', v'⟩ := c'
      obtain ⟨hs', hk'⟩ := Memory.sorted_tail h'.1
      have hv' := (h'.2 (k', v') (by simp)).1
      have ek : k = k' := by
        rcases Nat.lt_trichotomy k k' with hl | hl | hl
        · have := e k
          simp only [Memory.read, if_true, if_neg (Nat.ne_of_lt hl), if_pos hl] at this
          exact absurd this hv
        · exact hl
        · have := e k'
          simp only [Memory.read, if_true, if_neg (Nat.ne_of_lt hl), if_pos hl] at this
          exact absurd this.symm hv'
      subst ek
      have ev : v = v' := by simpa [Memory.read] using e k
      subst ev
      have ht : t = t' := by
        refine ih ⟨hs, fun c hc => h.2 c (by simp [hc])⟩ ⟨hs', fun c hc => h'.2 c (by simp [hc])⟩
          fun a => ?_
        by_cases ha : a ≤ k
        · rw [Memory.read_below fun c hc => Nat.lt_of_le_of_lt ha (hk c hc),
            Memory.read_below fun c hc => Nat.lt_of_le_of_lt ha (hk' c hc)]
        · have := e a
          simpa only [Memory.read, if_neg (show ¬a = k by omega), if_neg (show ¬a < k by omega)] using this
      rw [ht]

/-! ### Runs of bytes and erases -/

theorem Memory.writeBytes_wf {m : List Host.Cell} (h : Memory.wf m) {a : Nat} {bs : List Byte}
    (ha : a + bs.length ≤ Memory.size) : Memory.wf (Memory.writeBytes m a bs) := by
  induction bs generalizing m a with
  | nil => exact h
  | cons b t ih =>
    simp only [List.length_cons] at ha
    exact ih (Memory.write_wf h (by omega) b) (by omega)

/-- Reading after a run was written: inside the run the run's byte, elsewhere what was there. -/
theorem Memory.read_writeBytes {m : List Host.Cell} (h : (m.map Prod.fst).Pairwise (· < ·)) (a x : Nat)
    (bs : List Byte) : Memory.read (Memory.writeBytes m a bs) x =
      if a ≤ x ∧ x < a + bs.length then byteAt bs (x - a) else Memory.read m x := by
  induction bs generalizing m a with
  | nil => simp [Memory.writeBytes, show ¬(a ≤ x ∧ x < a) by omega]
  | cons b t ih =>
    simp only [Memory.writeBytes, ih (Memory.write_sorted h), Memory.read_write h, List.length_cons]
    by_cases h1 : a + 1 ≤ x ∧ x < a + 1 + t.length
    · rw [if_pos h1, if_pos (by omega)]
      obtain ⟨d, rfl⟩ : ∃ d, x = a + 1 + d := ⟨x - (a + 1), by omega⟩
      rw [show a + 1 + d - (a + 1) = d by omega, show a + 1 + d - a = d + 1 by omega, byteAt]
    · rw [if_neg h1]
      by_cases hx : x = a
      · subst hx
        rw [if_pos rfl, if_pos (by omega), Nat.sub_self, byteAt]
      · rw [if_neg hx, if_neg (by omega)]

theorem Memory.eraseRange_wf {m : List Host.Cell} (h : Memory.wf m) (a len : Nat) :
    Memory.wf (Memory.eraseRange m a len) := by
  refine ⟨?_, fun c hc => h.2 c (List.mem_of_mem_filter hc)⟩
  exact h.1.sublist (List.filter_sublist.map _)

/-- Reading after an erase: FFh inside the range, elsewhere what was there. -/
theorem Memory.read_eraseRange {m : List Host.Cell} (h : (m.map Prod.fst).Pairwise (· < ·))
    (a len x : Nat) : Memory.read (Memory.eraseRange m a len) x =
      if a ≤ x ∧ x < a + len then Config.erased else Memory.read m x := by
  induction m with
  | nil => simp [Memory.eraseRange, Memory.read]
  | cons d t ih =>
    obtain ⟨k, v⟩ := d
    obtain ⟨ht, hk⟩ := Memory.sorted_tail h
    have ih := ih ht
    simp only [Memory.eraseRange, List.filter_cons] at ih ⊢
    split
    · rename_i hin
      simp only [Bool.or_eq_true, decide_eq_true_eq] at hin
      simp only [Memory.read, ih]
      by_cases hx : x = k
      · subst hx; rw [if_pos rfl, if_neg (by omega)]; simp
      · simp only [if_neg hx]
        by_cases hlt : x < k <;> simp [hlt]
    · rename_i hin
      simp only [Bool.or_eq_true, decide_eq_true_eq, not_or] at hin
      rw [ih]
      by_cases hr : a ≤ x ∧ x < a + len
      · simp [hr]
      · rw [if_neg hr, if_neg hr, Memory.read, if_neg (by omega)]
        split
        · rename_i hlt; exact Memory.read_below fun c hc => Nat.lt_trans hlt (hk c hc)
        · rfl

/-! ### What an operation does to the array -/

theorem erasedWith_length (m : List Host.Cell) (a len : Nat) (g : List Byte) :
    (erasedWith m a len g).length = len := by
  induction len generalizing a g with
  | zero => rfl
  | succ n ih => cases g <;> simp [erasedWith, ih]

theorem programmedWith_length (m : List Host.Cell) (a len : Nat) (g : List Byte) :
    (programmedWith m a len g).length = len := by
  induction len generalizing a g with
  | zero => rfl
  | succ n ih => cases g <;> simp [programmedWith, ih]

/-- Where an action reaches. -/
def ArrayAct.inside : ArrayAct → Prop
  | .erase a len => a + len ≤ Memory.size
  | .program a bs => a + bs.length ≤ Memory.size

theorem ArrayAct.run_wf {m : List Host.Cell} (h : Memory.wf m) {act : ArrayAct} (hi : act.inside)
    (q : Option (List Byte)) : Memory.wf (act.run m q) := by
  cases act <;> cases q <;>
    simp only [ArrayAct.run, ArrayAct.inside] at hi ⊢ <;>
    first
      | exact Memory.eraseRange_wf h _ _
      | exact Memory.writeBytes_wf h (by simpa [erasedWith_length, programmedWith_length] using hi)

/-- Where a step reaches, the bytes it spares included. -/
def PlanStep.inside (st : PlanStep) : Prop :=
  st.act.inside ∧ st.act.addr + st.spares ≤ Memory.size

theorem Memory.readBytes_length (m : List Host.Cell) (a len : Nat) :
    (Memory.readBytes m a len).length = len := by
  induction len generalizing a with
  | zero => rfl
  | succ n ih => simp [Memory.readBytes, ih]

theorem PlanStep.spare_wf {st : PlanStep} (hi : st.inside) {m m' : List Host.Cell} (h : Memory.wf m') :
    Memory.wf (st.spare m m') :=
  Memory.writeBytes_wf h (by simpa [Memory.readBytes_length] using hi.2)

theorem PlanStep.inside.exposed {st : PlanStep} (h : st.inside) : st.exposed.inside :=
  ⟨h.1, Nat.le_trans (Nat.le_add_right _ _) h.2⟩

/-- Settling keeps the canonical form. -/
theorem ArrayAct.settle_wf (act : ArrayAct) (m : List Host.Cell) {m' : List Host.Cell} (h : Memory.wf m') :
    Memory.wf (act.settle m m') := by
  simp only [ArrayAct.settle]
  split
  · rename_i p _
    split
    · refine Memory.writeBytes_wf h ?_
      cases p <;> simp [Memory.readBytes_length, headerAddr, validityBytes, Memory.size, pageBytes, Config.imageBytes,
        Config.headerBytes]
    · exact h
  · exact h

/-- Only an erase of a header page is settled. -/
theorem ArrayAct.settle_of_none {act : ArrayAct} (h : act.erasesPage = none) (m m' : List Host.Cell) :
    act.settle m m' = m' := by simp [ArrayAct.settle, h]

/-- A plan whose steps stay inside the array keeps the canonical form, whatever the array does. -/
theorem runPlan_wf {plan : List PlanStep} (hp : ∀ st ∈ plan, st.inside) (q : Quirks)
    {m : List Host.Cell} (h : Memory.wf m) : Memory.wf (runPlan plan q m).array := by
  induction plan generalizing q m with
  | nil => exact h
  | cons st rest ih =>
    have h1 := ArrayAct.settle_wf st.act m (ArrayAct.run_wf h (hp st (by simp)).1 (q.headD none))
    have ih := fun q' => ih (fun x hx => hp x (by simp [hx])) q' h1
    simp only [runPlan]
    split
    · exact ih _
    · split
      · exact PlanStep.spare_wf (hp st (by simp)) h1
      · exact ih _

theorem interruptPlan_wf {plan : List PlanStep} (hp : ∀ st ∈ plan, st.inside) (q : Quirks)
    {m : List Host.Cell} (h : Memory.wf m) : Memory.wf (interruptPlan plan q m) :=
  runPlan_wf (fun _ hx => by
    obtain ⟨st, hs, rfl⟩ := List.mem_map.mp hx
    exact (hp st (List.mem_of_mem_take hs)).exposed) q h

/-- A step that spares nothing, cut short or failed, leaves what it has done (R148). -/
theorem PlanStep.spare_exposed (st : PlanStep) (m m' : List Host.Cell) : st.exposed.spare m m' = m' := rfl

theorem padTo_length (n : Nat) (bs : List Byte) : (padTo n bs).length = n := by
  induction n generalizing bs with
  | zero => rfl
  | succ n ih => cases bs <;> simp [padTo, ih]

/-- The echoed fields have their widths, whatever the frame holds (Table 11-3, R157). -/
theorem echoFields_length (ws : List Nat) (bs : List Byte) : (echoFields ws bs).length = ws.sum := by
  induction ws generalizing bs with
  | nil => rfl
  | cons w t ih =>
    simp only [echoFields, List.length_append, ih, List.sum_cons]
    split
    · rw [List.length_take, Nat.min_eq_left ‹_›]
    · rw [padTo_length]

/-- A frame that holds every echoed field has them copied as they stand (R157). -/
theorem echoFields_of_le {ws : List Nat} {bs : List Byte} (h : ws.sum ≤ bs.length) :
    echoFields ws bs = bs.take ws.sum := by
  induction ws generalizing bs with
  | nil => simp [echoFields]
  | cons w t ih =>
    simp only [List.sum_cons] at h ⊢
    have hw : w ≤ bs.length := by omega
    rw [echoFields, if_pos hw, ih (by rw [List.length_drop]; omega), List.take_add]

theorem sealImage_length (image : List Byte) : (sealImage image).length = Config.imageBytes := by
  simp [sealImage, padTo_length, crc16Bytes, be16, Config.imageBytes]

theorem headerHead_length (base : Nat) (settings : List Byte) :
    (headerHead base settings).length = settings.length + 4 := by
  simp [headerHead, crc16Bytes, be16]

theorem writePagePlan_inside (h : HPage) {head : List Byte} (hl : head.length ≤ 9) :
    ∀ st ∈ writePagePlan h head, st.inside := by
  simp only [writePagePlan, List.forall_mem_cons, List.not_mem_nil, false_imp_iff, implies_true, and_true,
    PlanStep.inside, ArrayAct.inside, ArrayAct.addr, List.length_take, List.length_drop]
  cases h <;>
    simp [headerAddr, Memory.size, pageBytes, Config.imageBytes, Config.headerBytes] <;> omega

theorem headerPlan_inside (h : HPage) {head : List Byte} (hl : head.length ≤ 9) {k : Nat}
    (hk : k ≤ Config.headerBytes) : ∀ st ∈ headerPlan h head k, st.inside := by
  intro st hst
  rcases List.mem_append.mp hst with hst | hst
  · exact writePagePlan_inside h hl st hst
  · simp only [List.mem_singleton] at hst
    subst hst
    simp only [Config.headerBytes] at hk
    cases h <;>
      simp [PlanStep.inside, ArrayAct.inside, ArrayAct.addr, headerAddr, HPage.other, Memory.size, pageBytes,
        Config.imageBytes, Config.headerBytes] <;> omega

theorem erasePageStep_inside (p : PageNo) : (erasePageStep p).inside := by
  simp only [erasePageStep, PlanStep.inside, ArrayAct.inside, ArrayAct.addr, pageAddr, pageBytes, Memory.size,
    Config.imageBytes, Config.headerBytes]
  have := p.isLt
  omega

theorem State.initSettings_length (s : State) : s.initSettings.length = 5 := by
  simp only [State.initSettings]
  split
  · rfl
  · split
    · simp [headerOf, Memory.readBytes_length, Config.headerBytes]
    · rfl

/-- Every step of an operation stays inside the array. -/
theorem State.planOf_inside (s : State) (op : StoreOp) : ∀ st ∈ s.planOf op, st.inside := by
  cases op with
  | programEntry n image =>
    simp only [State.planOf]
    split
    · simp only [List.mem_singleton, forall_eq, PlanStep.inside, ArrayAct.inside, ArrayAct.addr,
        sealImage_length, entryAddr, Memory.size, Config.imageBytes, Config.headerBytes]
      have := n.isLt
      omega
    · simp
  | erasePage p => simpa [State.planOf] using erasePageStep_inside p
  | eraseDirectory =>
    simp only [State.planOf, List.mem_map, forall_exists_index, and_imp, forall_apply_eq_imp_iff₂]
    exact fun p _ => erasePageStep_inside p
  | blankCheck p => simp [State.planOf]
  | scanCrc => simp [State.planOf]
  | writeSettings t =>
    exact headerPlan_inside _ (by simp [headerHead_length, Settings.bytes])
      (by simp [validityBytes, Config.headerBytes])
  | initHeader base =>
    exact headerPlan_inside _ (by simp [headerHead_length, State.initSettings_length]) (Nat.zero_le _)

theorem settleImage_wf {old m : List Host.Cell} (h : Memory.wf m) (goal : List Byte) (n : ResNo) :
    Memory.wf (settleImage old goal m n) := by
  simp only [settleImage]
  split
  · exact h
  · refine Memory.writeBytes_wf h ?_
    have := n.isLt
    simp only [imageOf, Memory.readBytes_length, entryAddr, Memory.size, Config.imageBytes, Config.headerBytes]
    omega

/-- An operation cut short keeps the canonical form (R148). -/
theorem State.cutShort_wf {s : State} (h : Memory.wf s.array) (op : StoreOp) (done : Quirks) :
    Memory.wf (s.cutShort op done) := by
  have step : ∀ (l : List (ResNo × List Byte)) (m : List Host.Cell), Memory.wf m →
      Memory.wf (l.foldl (fun m g => settleImage s.array g.2 m g.1) m) := by
    intro l
    induction l with
    | nil => exact fun _ hm => hm
    | cons g t ih => exact fun m hm => ih _ (settleImage_wf hm _ _)
  exact step _ _ (interruptPlan_wf (State.planOf_inside s op) _ h)

theorem highestMark_le (i : Nat) (bs : List Byte) : highestMark i bs ≤ i + bs.length := by
  induction bs generalizing i with
  | nil => simp [highestMark]
  | cons b t ih =>
    have := ih (i + 1)
    simp only [highestMark, List.length_cons]
    split
    · omega
    · split <;> omega

theorem marksUsed_le (m : List Host.Cell) (h : HPage) : marksUsed (headerOf m h) ≤ Config.marks := by
  refine (highestMark_le 0 _).trans ?_
  simp [Config.marks]

/-- Every step of the header work stays inside the array. -/
theorem startUpPlan_inside (m : List Host.Cell) : ∀ st ∈ startUpPlan m, st.inside := by
  simp only [startUpPlan]
  split
  · simp
  · rename_i h _
    have hk := marksUsed_le m h
    have hkk : needsRollover m h = false → spaceUsed m h = false →
        marksUsed (headerOf m h) < Config.marks := by
      intro h1 h2
      simp only [needsRollover, h2, Bool.not_false, Bool.true_and, decide_eq_false_iff_not] at h1
      omega
    have herase : ∀ (x : HPage) (f : Option Nat),
        PlanStep.inside { act := .erase (headerAddr x) Config.headerBytes, onFail := f } := by
      intro x f
      cases x <;> simp [PlanStep.inside, ArrayAct.inside, ArrayAct.addr, headerAddr, Memory.size, pageBytes,
        Config.imageBytes, Config.headerBytes]
    have hclean : ∀ st ∈ (if needsCleanup m then
        [{ act := .erase (headerAddr h.other) Config.headerBytes, onFail := none }]
        else [] : List PlanStep), st.inside := by
      split
      · simpa using herase h.other none
      · simp
    have hmark : ∀ (x : HPage) (k : Nat), k < Config.marks → (markStep x k).inside := by
      intro x k hk
      simp only [Config.marks] at hk
      cases x <;> simp [PlanStep.inside, ArrayAct.inside, ArrayAct.addr, headerAddr, Memory.size, pageBytes,
        markStep, Config.imageBytes, Config.headerBytes] <;> omega
    simp only [headerWork]
    split
    · exact hclean
    · rename_i hs
      split
      · simp only [List.forall_mem_append, List.forall_mem_cons, List.not_mem_nil, false_imp_iff,
          implies_true, and_true]
        refine ⟨⟨hclean, writePagePlan_inside _ ?_⟩, herase h none, hmark _ _ (by simp [Config.marks])⟩
        simp [headerHead_length, headerOf, Memory.readBytes_length, Config.headerBytes]
      · rename_i hr
        simp only [List.forall_mem_append, List.mem_singleton, forall_eq]
        exact ⟨hclean, hmark _ _ (hkk (by simpa using hr) (by simpa using hs))⟩

end Sys2Proof.Machine
end

