-- ==== Sys2Proof/Laws/Steady.lean ====
section
/-! SUPPORT. The fields that no operation on leases, waits, upgrades, activations and notices changes, gathered
in one value: each shared operation keeps it. -/

namespace Sys2Proof.Machine

/-- The fields outside the tables, the ports and the directory. -/
structure Steady where
  powered : Bool
  resetLow : Bool
  part : PartState
  epoch : Nat
  active : Option HPage
  rotation : PortId
  engine : Option Request
  prescale : Nat
  run : RunState
  divider : Nat
  leaseTicks : Nat
  waitTicks : Nat
  upgradeTicks : Nat
  store : Store
  array : List Host.Cell
  pending : List Instr

/-- The steady fields of a state. -/
def State.steady (s : State) : Steady :=
  { powered := s.powered, resetLow := s.resetLow, part := s.part, epoch := s.epoch, active := s.active,
    rotation := s.rotation, engine := s.engine, prescale := s.prescale, run := s.run,
    divider := s.divider, leaseTicks := s.leaseTicks, waitTicks := s.waitTicks,
    upgradeTicks := s.upgradeTicks, store := s.store, array := s.array, pending := s.pending }

theorem steady_foldl {α : Type} {f : State → α → State} (hf : ∀ t a, (f t a).steady = t.steady)
    (l : List α) (s : State) : (l.foldl f s).steady = s.steady := by
  induction l generalizing s with
  | nil => rfl
  | cons a t ih => rw [List.foldl_cons, ih, hf]

variable (s : State)

/-! ### Updates -/

@[simp] theorem steady_setPort (p : PortId) (u : PortUnit) : (s.setPort p u).steady = s.steady := rfl
@[simp] theorem steady_setSide (p : CPort) (v : ClientSide) : (s.setSide p v).steady = s.steady := rfl
@[simp] theorem steady_setEntry (n : ResNo) (e : Entry) : (s.setEntry n e).steady = s.steady := rfl
@[simp] theorem steady_setRecord (n : ResNo) (r : Record) : (s.setRecord n r).steady = s.steady := rfl
@[simp] theorem steady_setSlot (i : SlotNo) (v : Slot) : (s.setSlot i v).steady = s.steady := rfl
@[simp] theorem steady_setWait (j : WaitNo) (w : WaitEntry) : (s.setWait j w).steady = s.steady := rfl
@[simp] theorem steady_setActivations (l : List Activation) : (s.setActivations l).steady = s.steady := rfl
@[simp] theorem steady_setBody (i : SlotNo) (b : SlotBody) : (s.setBody i b).steady = s.steady := rfl
@[simp] theorem steady_freeSlot (i : SlotNo) : (s.freeSlot i).steady = s.steady := rfl
@[simp] theorem steady_pushMessage (p : PortId) (m : Message) : (s.pushMessage p m).steady = s.steady := rfl
@[simp] theorem steady_setOwed (i : SlotNo) (o : Option Owed) : (s.setOwed i o).steady = s.steady := rfl
@[simp] theorem steady_joinOwed (p : CPort) (r : Ref) : (s.joinOwed p r).steady = s.steady := rfl
@[simp] theorem steady_leaveOwed (p : CPort) (r : Ref) : (s.leaveOwed p r).steady = s.steady := rfl

/-! ### Notices -/

@[simp] theorem steady_offer (i : SlotNo) (k : Owed) : (s.offer i k).steady = s.steady := by
  simp only [State.offer]
  split
  · rfl
  · split
    · rfl
    · split <;> rfl

@[simp] theorem steady_dropOwed (r : Ref) : (s.dropOwed r).steady = s.steady := by
  cases r <;> simp only [State.dropOwed] <;> split <;> rfl

@[simp] theorem steady_withdraw (p : CPort) (r : Ref) : (s.withdraw p r).steady = s.steady := by
  simp [State.withdraw]

@[simp] theorem steady_deliverRef (p : CPort) (r : Ref) : (s.deliverRef p r).steady = s.steady := by
  cases r <;> simp only [State.deliverRef]
  · split
    · split <;> simp
    · rfl
  · split <;> simp

@[simp] theorem steady_deliverOwed (fuel : Nat) (p : CPort) :
    (State.deliverOwed fuel p s).steady = s.steady := by
  induction fuel generalizing s with
  | zero => rfl
  | succ n ih =>
    simp only [State.deliverOwed]
    split
    · rfl
    · split
      · simp [ih]
      · rfl

@[simp] theorem steady_deliverAllOwed (p : CPort) : (s.deliverAllOwed p).steady = s.steady := by
  simp [State.deliverAllOwed]

/-! ### Grants and ends -/

@[simp] theorem steady_grantSlot (i : SlotNo) (n : ResNo) (c : Client) (m : Mode) (term : Nat) :
    (s.grantSlot i n c m term).steady = s.steady := rfl

@[simp] theorem steady_leaveQueue (j : WaitNo) (n : ResNo) (i : SlotNo) :
    (s.leaveQueue j n i).steady = s.steady := rfl

@[simp] theorem steady_endWait (cause : WaitCause) (j : WaitNo) :
    (s.endWait cause j).steady = s.steady := by
  simp only [State.endWait]
  split
  · split <;> rfl
  · rfl
  · rfl

@[simp] theorem steady_endWaitPurged (j : WaitNo) : (s.endWaitPurged j).steady = s.steady := by
  simp only [State.endWaitPurged]
  split
  · split <;> rfl
  · rfl
  · rfl

@[simp] theorem steady_endWaitQuiet (j : WaitNo) : (s.endWaitQuiet j).steady = s.steady := by
  simp only [State.endWaitQuiet]
  split <;> rfl

@[simp] theorem steady_exhaust (n : ResNo) : (s.exhaust n).steady = s.steady := by
  simp only [State.exhaust]
  split
  · exact (steady_foldl (fun t j => steady_endWait t .fenceSpent j) _ _).trans rfl
  · rfl

@[simp] theorem steady_clearUpgrade (n : ResNo) : (s.clearUpgrade n).steady = s.steady := by
  simp only [State.clearUpgrade]
  split <;> rfl

@[simp] theorem steady_upgradeSlot (i : SlotNo) (n : ResNo) :
    (s.upgradeSlot i n).steady = s.steady := rfl

@[simp] theorem steady_endUpgrade (n : ResNo) (cause : UpgradeEndCause) :
    (s.endUpgrade n cause).steady = s.steady := by
  simp only [State.endUpgrade]
  split <;> simp

@[simp] theorem steady_serveUpgrade (n : ResNo) : (s.serveUpgrade n).steady = s.steady := by
  simp only [State.serveUpgrade]
  split
  · rfl
  · split <;> simp

@[simp] theorem steady_grantWait (n : ResNo) (j : WaitNo) (w : Wait) (i : SlotNo) :
    (s.grantWait n j w i).steady = s.steady := by
  simp [State.grantWait]

theorem steady_grantHead {s t : State} {n : ResNo} (h : s.grantHead? n = some t) :
    t.steady = s.steady := by
  simp only [State.grantHead?] at h
  split at h
  · simp at h
  · split at h
    · split at h
      · simp only [Option.some.injEq] at h; subst h; simp
      · simp at h
    · simp at h
    · simp at h

@[simp] theorem steady_grantHeads (fuel : Nat) (n : ResNo) :
    (State.grantHeads fuel n s).steady = s.steady := by
  induction fuel generalizing s with
  | zero => rfl
  | succ k ih =>
    simp only [State.grantHeads]
    split
    · rfl
    · rename_i h; rw [ih, steady_grantHead h]

@[simp] theorem steady_serve (n : ResNo) : (s.serve n).steady = s.steady := by
  simp [State.serve]

@[simp] theorem steady_recheck (n : ResNo) (image : Entry) : (s.recheck n image).steady = s.steady := by
  simp only [State.recheck]
  refine steady_foldl (fun t j => ?_) _ _
  split <;> simp

@[simp] theorem steady_putInForce (n : ResNo) (image : Entry) :
    (s.putInForce n image).steady = s.steady := rfl

@[simp] theorem steady_offerActivated : s.offerActivated.steady = s.steady := by
  simp only [State.offerActivated]
  split
  · split <;> rfl
  · rfl

@[simp] theorem steady_applyPending (n : ResNo) (image : Entry) :
    (s.applyPending n image).steady = s.steady := by
  simp [State.applyPending]

/-- The grant rule changes none of the steady fields (R59). -/
@[simp] theorem steady_grantRule (n : ResNo) : (s.grantRule n).steady = s.steady := by
  simp only [State.grantRule]
  split
  · split
    · split <;> simp
    · rfl
  · simp

@[simp] theorem steady_grantRules (ns : List ResNo) : (s.grantRules ns).steady = s.steady :=
  steady_foldl (fun t n => steady_grantRule t n) ns s

@[simp] theorem steady_leaveHolders (i : SlotNo) (n : ResNo) :
    (s.leaveHolders i n).steady = s.steady := rfl

/-- A lease end changes none of the steady fields (R32). -/
@[simp] theorem steady_endLease (cause : EndCause) (i : SlotNo) :
    (s.endLease cause i).steady = s.steady := by
  simp only [State.endLease]
  split
  · rfl
  · split
    · rfl
    · split <;> rfl

@[simp] theorem steady_endLeasePurged (i : SlotNo) : (s.endLeasePurged i).steady = s.steady := by
  simp only [State.endLeasePurged]
  split
  · rfl
  · split <;> rfl

@[simp] theorem steady_endLeaseQuiet (i : SlotNo) : (s.endLeaseQuiet i).steady = s.steady := by
  simp only [State.endLeaseQuiet]
  split <;> rfl

@[simp] theorem steady_revokeSlot (i : SlotNo) (g : Nat) : (s.revokeSlot i g).steady = s.steady := by
  simp only [State.revokeSlot]
  split
  · split
    · simp
    · split <;> simp
  all_goals rfl

/-! ### Lists of them -/

@[simp] theorem steady_withdrawAll (p : CPort) (refs : List Ref) :
    (s.withdrawAll p refs).steady = s.steady := steady_foldl (fun t r => steady_withdraw t p r) refs s

@[simp] theorem steady_endWaitsQuiet (js : List WaitNo) : (s.endWaitsQuiet js).steady = s.steady :=
  steady_foldl (fun t j => steady_endWaitQuiet t j) js s

@[simp] theorem steady_endLeasesQuiet (ls : List SlotNo) : (s.endLeasesQuiet ls).steady = s.steady :=
  steady_foldl (fun t i => steady_endLeaseQuiet t i) ls s

@[simp] theorem steady_clearUpgrades (ns : List ResNo) : (s.clearUpgrades ns).steady = s.steady :=
  steady_foldl (fun t n => steady_clearUpgrade t n) ns s

@[simp] theorem steady_revokeAll (ls : List SlotNo) (g : Nat) : (s.revokeAll ls g).steady = s.steady :=
  steady_foldl (fun t i => steady_revokeSlot t i g) ls s

@[simp] theorem steady_applyNow (n : ResNo) (image : Entry) : (s.applyNow n image).steady = s.steady := by
  simp [State.applyNow]

@[simp] theorem steady_tickSlots : s.tickSlots.steady = s.steady := rfl
@[simp] theorem steady_tickWaits : s.tickWaits.steady = s.steady := rfl
@[simp] theorem steady_tickDeadlines : s.tickDeadlines.steady = s.steady := rfl

@[simp] theorem steady_warn (i : SlotNo) : (s.warn i).steady = s.steady := by
  simp only [State.warn]
  split
  · split <;> simp
  all_goals rfl

@[simp] theorem steady_tickSlot (i : SlotNo) : (s.tickSlot i).steady = s.steady := by
  simp only [State.tickSlot]
  split <;> simp

/-- The lease table's tick changes none of the steady fields once it is taken (R79). -/
@[simp] theorem steady_leaseTick : s.leaseTick.steady = s.steady := by
  simp only [State.leaseTick, steady_grantRules]
  rw [steady_foldl (fun t i => steady_tickSlot t i), steady_tickSlots]

@[simp] theorem steady_waitTick (order : List WaitNo) : (s.waitTick order).steady = s.steady := by
  simp only [State.waitTick, steady_grantRules, State.endTimeouts]
  rw [steady_foldl, steady_tickWaits]
  intro t n
  split <;> simp

@[simp] theorem steady_upgradeTick (order : List ResNo) : (s.upgradeTick order).steady = s.steady := by
  simp only [State.upgradeTick, steady_grantRules]
  rw [steady_foldl (fun t n => steady_endUpgrade t n .timeout), steady_tickDeadlines]

end Sys2Proof.Machine
end

