-- ==== Sys2Proof/Laws/Ports.lean ====
section
/-! SUPPORT. What the operations on leases, waits, upgrades and activations do to the ports: notices join the tails
of the outbound queues where there is room, and nothing else of a port unit changes (R110, R111, R122). -/

namespace Sys2Proof.Machine

/-- The port unit keeps the limits of R110. -/
def PortUnit.fits (p : PortId) (u : PortUnit) : Prop :=
  u.taken ≤ portDepth p ∧ u.notices ≤ noticeLimit p

/-- The unit with further messages at the tail of its queue. -/
def PortUnit.grown (u : PortUnit) (ms : List Message) : PortUnit := { u with queue := u.queue ++ ms }

/-- Between the two states each port's queue has grown by notices alone, within the limits of R110, and the
rest of the unit is as it was. -/
def PortsGrow (s t : State) : Prop :=
  ∀ p : PortId, ∃ ms : List Message, (∀ m ∈ ms, m.isNotice = true)
    ∧ t.port p = (s.port p).grown ms ∧ ((s.port p).fits p → (t.port p).fits p)

theorem PortsGrow.of_same {s t : State} (h : ∀ p, t.port p = s.port p) : PortsGrow s t := fun p =>
  ⟨[], by simp, by simp [h p, PortUnit.grown], by simp [h p]⟩

theorem PortsGrow.of_ports {s t : State} (h : t.ports = s.ports) : PortsGrow s t :=
  .of_same fun p => by simp [State.port, h]

theorem PortsGrow.rfl {s : State} : PortsGrow s s := .of_same fun _ => Eq.refl _

theorem PortsGrow.trans {s t u : State} (h : PortsGrow s t) (k : PortsGrow t u) : PortsGrow s u := by
  intro p
  obtain ⟨ms, hm, he, hf⟩ := h p
  obtain ⟨ns, hn, ke, kf⟩ := k p
  refine ⟨ms ++ ns, ?_, by simp [ke, he, PortUnit.grown], fun x => kf (hf x)⟩
  simpa [or_imp, forall_and] using ⟨hm, hn⟩

theorem PortsGrow.foldl {α : Type} {f : State → α → State} (hf : ∀ t a, PortsGrow t (f t a))
    (l : List α) (s : State) : PortsGrow s (l.foldl f s) := by
  induction l generalizing s with
  | nil => exact .rfl
  | cons a t ih => exact (hf s a).trans (ih _)

/-- The reservation of a port stays. -/
theorem PortsGrow.reserved {s t : State} (h : PortsGrow s t) (p : PortId) :
    (t.port p).reserved = (s.port p).reserved := by
  obtain ⟨_, _, e, _⟩ := h p
  rw [e]; rfl

/-- The limits stay kept. -/
theorem PortsGrow.fits {s t : State} (h : PortsGrow s t) {p : PortId} (hs : (s.port p).fits p) :
    (t.port p).fits p := by
  obtain ⟨_, _, _, f⟩ := h p
  exact f hs

/-- A notice pushed where there is room. -/
theorem PortsGrow.push {s : State} {p : PortId} {m : Message} (hm : m.isNotice = true)
    (hr : (s.port p).room p = true) : PortsGrow s (s.pushMessage p m) := by
  intro q
  by_cases h : q = p
  · subst h
    refine ⟨[m], by simp [hm], by simp [State.port_pushMessage, PortUnit.grown], fun _ => ?_⟩
    simp only [PortUnit.room, Bool.and_eq_true, decide_eq_true_eq] at hr
    simp only [State.port_pushMessage, PortUnit.fits, PortUnit.taken, PortUnit.notices, if_true] at hr ⊢
    constructor
    · simp only [List.length_append, List.length_singleton]; omega
    · simp only [List.filter_append, List.length_append, List.filter_cons, hm, if_true]
      simp; omega
  · exact ⟨[], by simp, by simp [State.port_pushMessage, h, PortUnit.grown],
      by simp [State.port_pushMessage, h]⟩

theorem State.canTake_room {s : State} {p : CPort} (h : s.canTake p = true) :
    (s.port (.client p)).room (.client p) = true := by
  simp only [State.canTake, Bool.and_eq_true] at h; exact h.2

theorem State.canTake_of_ports {s t : State} (hp : t.ports = s.ports) (hs : t.sides = s.sides) (p : CPort) :
    t.canTake p = s.canTake p := by
  simp [State.canTake, State.side, State.port, hp, hs]

variable (s : State)

/-! ### Notices -/

theorem ports_offer (i : SlotNo) (k : Owed) : PortsGrow s (s.offer i k) := by
  simp only [State.offer]
  split
  · exact .rfl
  · split
    · rename_i h
      exact .push (by rfl) (State.canTake_room h)
    · split <;> exact .of_ports (by rfl)

theorem ports_dropOwed (r : Ref) : PortsGrow s (s.dropOwed r) := by
  cases r <;> simp only [State.dropOwed] <;> split <;> exact .of_ports (by rfl)

theorem ports_withdraw (p : CPort) (r : Ref) : PortsGrow s (s.withdraw p r) :=
  PortsGrow.trans (.of_ports (by rfl)) (ports_dropOwed _ r)

theorem ports_deliverRef {s : State} {p : CPort} (h : (s.port (.client p)).room (.client p) = true)
    (r : Ref) : PortsGrow s (s.deliverRef p r) := by
  cases r <;> simp only [State.deliverRef]
  · split
    · split
      · exact (PortsGrow.push (by rfl) h).trans (ports_dropOwed _ _)
      · exact .rfl
    · exact .rfl
  · split
    · exact (PortsGrow.push (m := waitEndedNotice _ _) (by rfl) h).trans (.of_ports (by rfl))
    · exact .rfl
    · exact .rfl

theorem ports_deliverOwed (fuel : Nat) (p : CPort) : PortsGrow s (State.deliverOwed fuel p s) := by
  induction fuel generalizing s with
  | zero => exact .rfl
  | succ n ih =>
    simp only [State.deliverOwed]
    split
    · exact .rfl
    · split
      · rename_i h
        refine PortsGrow.trans ?_ (ih _)
        refine PortsGrow.trans (.of_ports (by rfl)) (ports_deliverRef ?_ _)
        simpa using h
      · exact .rfl

/-- Delivery of owed notices grows the queues by notices within their limits (R114). -/
theorem ports_deliverAllOwed (p : CPort) : PortsGrow s (s.deliverAllOwed p) := ports_deliverOwed s _ p

theorem Activation.notice_isNotice {a : Activation} {m : Message} (h : a.notice? = some m) :
    m.isNotice = true := by
  simp only [Activation.notice?] at h
  split at h
  · simp at h
  · simp only [Option.some.injEq] at h; subst h; rfl

theorem takeApplied_isNotice {l : List Activation} {r : Message × List Activation}
    (h : takeApplied l = some r) : r.1.isNotice = true := by
  induction l generalizing r with
  | nil => simp [takeApplied] at h
  | cons a t ih =>
    simp only [takeApplied] at h
    split at h
    · rename_i m hm
      simp only [Option.some.injEq] at h; subst h
      exact Activation.notice_isNotice hm
    · simp only [Option.map_eq_some_iff] at h
      obtain ⟨x, hx, rfl⟩ := h
      have := ih hx
      exact this

theorem ports_raiseStoreNotice {m : Message} (hm : m.isNotice = true) :
    PortsGrow s (s.raiseStoreNotice m) := by
  simp only [State.raiseStoreNotice]
  split
  · rename_i h
    simp only [Bool.and_eq_true] at h
    exact .push hm h.1
  · exact .of_ports (by rfl)

/-! ### Grants and ends -/

theorem ports_endWait (cause : WaitCause) (j : WaitNo) : PortsGrow s (s.endWait cause j) := by
  simp only [State.endWait]
  split
  · split
    · rename_i h
      exact PortsGrow.trans (.of_ports (by rfl))
        (PortsGrow.trans (.push (m := waitEndedNotice _ _) (by rfl) (State.canTake_room h)) (.of_ports (by rfl)))
    · exact .of_ports (by rfl)
  · exact .rfl
  · exact .rfl

theorem ports_endWaitPurged (j : WaitNo) : PortsGrow s (s.endWaitPurged j) := by
  simp only [State.endWaitPurged]
  split
  · split
    · rename_i h
      exact PortsGrow.trans (.of_ports (by rfl))
        (PortsGrow.trans (.push (m := waitEndedNotice _ _) (by rfl) (State.canTake_room h)) (.of_ports (by rfl)))
    · exact .of_ports (by rfl)
  · exact .rfl
  · exact .rfl

theorem ports_endWaitQuiet (j : WaitNo) : PortsGrow s (s.endWaitQuiet j) := by
  simp only [State.endWaitQuiet]
  split <;> exact .of_ports (by rfl)

theorem ports_exhaust (n : ResNo) : PortsGrow s (s.exhaust n) := by
  simp only [State.exhaust]
  split
  · exact PortsGrow.trans (.of_ports (by rfl)) (PortsGrow.foldl (fun t j => ports_endWait t .fenceSpent j) _ _)
  · exact .rfl

theorem ports_clearUpgrade (n : ResNo) : PortsGrow s (s.clearUpgrade n) := by
  simp only [State.clearUpgrade]
  split <;> exact .of_ports (by rfl)

theorem ports_endUpgrade (n : ResNo) (cause : UpgradeEndCause) : PortsGrow s (s.endUpgrade n cause) := by
  simp only [State.endUpgrade]
  split
  · exact .rfl
  · exact (ports_clearUpgrade s n).trans (ports_offer _ _ _)

theorem ports_serveUpgrade (n : ResNo) : PortsGrow s (s.serveUpgrade n) := by
  simp only [State.serveUpgrade]
  split
  · exact .rfl
  · split
    · exact PortsGrow.trans (.of_ports (by rfl)) ((ports_offer _ _ _).trans (ports_exhaust _ _))
    · exact .rfl

theorem ports_grantWait (n : ResNo) (j : WaitNo) (w : Wait) (i : SlotNo) :
    PortsGrow s (s.grantWait n j w i) :=
  PortsGrow.trans (.of_ports (by rfl)) ((ports_offer _ i (.granted w.rid)).trans (ports_exhaust _ n))

theorem ports_grantHead {s t : State} {n : ResNo} (h : s.grantHead? n = some t) : PortsGrow s t := by
  simp only [State.grantHead?] at h
  split at h
  · simp at h
  · split at h
    · split at h
      · simp only [Option.some.injEq] at h; subst h; exact ports_grantWait _ _ _ _ _
      · simp at h
    · simp at h
    · simp at h

theorem ports_grantHeads (fuel : Nat) (n : ResNo) : PortsGrow s (State.grantHeads fuel n s) := by
  induction fuel generalizing s with
  | zero => exact .rfl
  | succ k ih =>
    simp only [State.grantHeads]
    split
    · exact .rfl
    · rename_i h; exact (ports_grantHead h).trans (ih _)

theorem ports_serve (n : ResNo) : PortsGrow s (s.serve n) :=
  (ports_serveUpgrade s n).trans (ports_grantHeads _ _ n)

theorem ports_recheck (n : ResNo) (image : Entry) : PortsGrow s (s.recheck n image) := by
  refine PortsGrow.foldl (fun t j => ?_) _ _
  split
  · exact ports_endWait _ _ _
  · exact .rfl

theorem ports_offerActivated : PortsGrow s s.offerActivated := by
  simp only [State.offerActivated]
  split
  · rename_i h
    simp only [Bool.and_eq_true] at h
    split
    · rename_i hr
      exact PortsGrow.trans (.push (takeApplied_isNotice hr) h.1) (.of_ports (by rfl))
    · exact .rfl
  · exact .rfl

theorem ports_applyPending (n : ResNo) (image : Entry) : PortsGrow s (s.applyPending n image) := by
  simp only [State.applyPending]
  exact PortsGrow.trans (t := s.putInForce n image) (.of_ports (by rfl)) <| (ports_recheck _ n image).trans <|
    PortsGrow.trans (.of_ports (by rfl)) <| (ports_serve _ n).trans (ports_offerActivated _)

/-- The grant rule grows the queues by notices within their limits (R59). -/
theorem ports_grantRule (n : ResNo) : PortsGrow s (s.grantRule n) := by
  simp only [State.grantRule]
  split
  · split
    · split
      · exact ports_applyPending _ _ _
      · exact .rfl
    · exact .rfl
  · exact ports_serve _ _

theorem ports_grantRules (ns : List ResNo) : PortsGrow s (s.grantRules ns) :=
  PortsGrow.foldl (fun t n => ports_grantRule t n) ns s

/-- A lease end grows the queues by notices within their limits (R33). -/
theorem ports_endLease (cause : EndCause) (i : SlotNo) : PortsGrow s (s.endLease cause i) := by
  simp only [State.endLease]
  split
  · exact .rfl
  · split
    · rename_i h
      simp only [Bool.and_eq_true] at h
      exact PortsGrow.trans (.of_ports (by rfl))
        (PortsGrow.trans (.push (m := leaseEndedNotice _ _ _ _ _) (by rfl) (State.canTake_room h.2)) (.of_ports (by rfl)))
    · split <;> exact .of_ports (by rfl)

theorem ports_endLeasePurged (i : SlotNo) : PortsGrow s (s.endLeasePurged i) := by
  simp only [State.endLeasePurged]
  split
  · exact .rfl
  · split
    · rename_i h
      simp only [Bool.and_eq_true] at h
      exact PortsGrow.trans (.of_ports (by rfl))
        (PortsGrow.trans (.push (m := leaseEndedNotice _ _ _ _ _) (by rfl) (State.canTake_room h.2)) (.of_ports (by rfl)))
    · exact .of_ports (by rfl)

theorem ports_endLeaseQuiet (i : SlotNo) : PortsGrow s (s.endLeaseQuiet i) := by
  simp only [State.endLeaseQuiet]
  split <;> exact .of_ports (by rfl)

theorem ports_revokeSlot (i : SlotNo) (g : Nat) : PortsGrow s (s.revokeSlot i g) := by
  simp only [State.revokeSlot]
  split
  · split
    · exact ports_endLease _ _ _
    · split
      · exact PortsGrow.trans (.of_ports (by rfl)) (ports_offer _ _ _)
      · exact PortsGrow.trans (.of_ports (by rfl)) (ports_offer _ _ _)
  all_goals exact .rfl

/-! ### Lists of them -/

theorem ports_withdrawAll (p : CPort) (refs : List Ref) : PortsGrow s (s.withdrawAll p refs) :=
  PortsGrow.foldl (fun t r => ports_withdraw t p r) refs s

theorem ports_endWaitsQuiet (js : List WaitNo) : PortsGrow s (s.endWaitsQuiet js) :=
  PortsGrow.foldl (fun t j => ports_endWaitQuiet t j) js s

theorem ports_endLeasesQuiet (ls : List SlotNo) : PortsGrow s (s.endLeasesQuiet ls) :=
  PortsGrow.foldl (fun t i => ports_endLeaseQuiet t i) ls s

theorem ports_clearUpgrades (ns : List ResNo) : PortsGrow s (s.clearUpgrades ns) :=
  PortsGrow.foldl (fun t n => ports_clearUpgrade t n) ns s

theorem ports_revokeAll (ls : List SlotNo) (g : Nat) : PortsGrow s (s.revokeAll ls g) :=
  PortsGrow.foldl (fun t i => ports_revokeSlot t i g) ls s

theorem ports_applyNow (n : ResNo) (image : Entry) : PortsGrow s (s.applyNow n image) :=
  PortsGrow.trans (t := s.putInForce n image) (.of_ports (by rfl)) <| (ports_recheck _ n image).trans <|
    PortsGrow.trans (.of_ports (by rfl)) (ports_serve _ n)

theorem ports_warn (i : SlotNo) : PortsGrow s (s.warn i) := by
  simp only [State.warn]
  split
  · split
    · exact PortsGrow.trans (.of_ports (by rfl)) (ports_offer _ _ _)
    · exact .rfl
  all_goals exact .rfl

theorem ports_tickSlot (i : SlotNo) : PortsGrow s (s.tickSlot i) := by
  simp only [State.tickSlot]
  split
  · exact ports_endLease _ _ _
  · exact ports_warn _ _

theorem ports_leaseTick : PortsGrow s s.leaseTick :=
  PortsGrow.trans (.of_ports (by rfl)) <|
    (PortsGrow.foldl (fun t i => ports_tickSlot t i) _ _).trans (ports_grantRules _ _)

theorem ports_waitTick (order : List WaitNo) : PortsGrow s (s.waitTick order) := by
  simp only [State.waitTick, State.endTimeouts]
  refine PortsGrow.trans (.of_ports (by rfl)) (PortsGrow.trans (PortsGrow.foldl (fun t n => ?_) _ _)
    (ports_grantRules _ _))
  split
  · exact ports_endWait _ _ _
  · exact .rfl

theorem ports_upgradeTick (order : List ResNo) : PortsGrow s (s.upgradeTick order) :=
  PortsGrow.trans (.of_ports (by rfl)) <|
    (PortsGrow.foldl (fun t n => ports_endUpgrade t n .timeout) _ _).trans (ports_grantRules _ _)

end Sys2Proof.Machine
end

