-- ==== Sys2Proof/Laws/Requests.lean ====
section
/-! SUPPORT. What carrying out a request does: when it answers what, and that a request in no state to run leaves the
state as it is (R109, R157). -/

namespace Sys2Proof.Machine

variable {s : State} {k : Kind}

/-- A well-formed client request outside FAULTED is decided by its own checks and answered (R157). -/
theorem State.clientRequest_decided {p : CPort} {f : Frame} {t : Fin 8} {d : Client → Frame → State → Decision}
    (hs : s.serving = true) (he : s.engine = some ⟨.client p, f⟩) (hk : byteAt f 0 = k.code)
    (hp : s.part ≠ .faulted) (hf : formOk k ⟨.client p, f⟩ = true) (ht : tagOf? (byteAt f 1) = some t) :
    s.clientRequest k d =
      (d { port := p, tag := t } f s).1.answer k ⟨.client p, f⟩ (d { port := p, tag := t } f s).2 := by
  simp [State.clientRequest, hs, he, hk, hp, hf, ht]

/-- A client request in FAULTED is answered PART_FAULTED, whatever its form (R157). -/
theorem State.clientRequest_faulted {p : CPort} {f : Frame} {d : Client → Frame → State → Decision}
    (hs : s.serving = true) (he : s.engine = some ⟨.client p, f⟩) (hk : byteAt f 0 = k.code)
    (hp : s.part = .faulted) :
    s.clientRequest k d = s.answer k ⟨.client p, f⟩ (Reply.bare .partFaulted) := by
  simp [State.clientRequest, hs, he, hk, hp]

/-- A malformed client request outside FAULTED is answered BAD_REQUEST with no other change (R157). -/
theorem State.clientRequest_malformed {p : CPort} {f : Frame} {d : Client → Frame → State → Decision}
    (hs : s.serving = true) (he : s.engine = some ⟨.client p, f⟩) (hk : byteAt f 0 = k.code)
    (hp : s.part ≠ .faulted)
    (hf : formOk k ⟨.client p, f⟩ = false ∨ tagOf? (byteAt f 1) = none) :
    s.clientRequest k d = s.answer k ⟨.client p, f⟩ (Reply.bare .badRequest) := by
  rcases hf with hf | hf
  · simp [State.clientRequest, hs, he, hk, hp, hf]
  · by_cases hb : formOk k ⟨.client p, f⟩ = true <;> simp [State.clientRequest, hs, he, hk, hp, hf, hb]

/-- A byte that holds a number read back. -/
theorem toNat_byteOf {n : Nat} (h : n < 256) : (byteOf n).toNat = n := by
  simp only [byteOf, BitVec.toNat_ofNat]; omega

theorem tagOf_byteOf (t : Fin 8) : tagOf? (byteOf t.val) = some t := by
  have h : (byteOf t.val).toNat = t.val := toNat_byteOf (by omega)
  simp [tagOf?, h]

theorem slotOf_byteOf (i : SlotNo) : slotOf? (byteOf i.val) = some i := by
  have h : (byteOf i.val).toNat = i.val := toNat_byteOf (by omega)
  simp [slotOf?, h]

theorem waitOf_byteOf (j : WaitNo) : waitOf? (byteOf j.val) = some j := by
  have h : (byteOf j.val).toNat = j.val := toNat_byteOf (by omega)
  simp [waitOf?, h]

theorem pageOf_byteOf (p : PageNo) : pageOf? (byteOf p.val) = some p := by
  have h : (byteOf p.val).toNat = p.val := toNat_byteOf (by omega)
  simp [pageOf?, h]

/-- A client's well-formed request, as the statements say it, is decided and answered. -/
theorem State.clientRequest_asks {c : Client} {f : Frame} {d : Client → Frame → State → Decision}
    (h : s.clientAsks k c f) : s.clientRequest k d = (d c f s).1.clientAnswer k c f (d c f s).2 := by
  obtain ⟨hs, hp, he, hk, ht, h3, hl⟩ := h
  refine State.clientRequest_decided (t := c.tag) hs he hk hp ?_ ?_
  · simp [formOk, h3, hl]
  · rw [ht]; exact tagOf_byteOf c.tag

/-- A malformed client request, as the statements say it. -/
theorem State.clientRequest_turnedAway {p : CPort} {f : Frame} {d : Client → Frame → State → Decision}
    (h : s.clientMalformed k p f) :
    s.clientRequest k d = s.answer k ⟨.client p, f⟩ (Reply.bare .badRequest) := by
  obtain ⟨hs, hp, he, hk, h3 | hl | ht⟩ := h
  · exact State.clientRequest_malformed hs he hk hp (.inl (by simp [formOk, h3]))
  · exact State.clientRequest_malformed hs he hk hp (.inl (by simp [formOk, hl]))
  · exact State.clientRequest_malformed hs he hk hp (.inr (by simp [tagOf?]; omega))

/-- All that a client request can do: nothing, an answer alone, or its decision and the answer. -/
theorem State.clientRequest_cases (d : Client → Frame → State → Decision) :
    s.clientRequest k d = s
      ∨ (∃ p f a, s.serving = true ∧ s.engine = some ⟨.client p, f⟩ ∧
          s.clientRequest k d = s.answer k ⟨.client p, f⟩ a)
      ∨ ∃ p f t, s.serving = true ∧ s.engine = some ⟨.client p, f⟩ ∧ s.part ≠ .faulted ∧
          s.clientRequest k d =
            (d { port := p, tag := t } f s).1.answer k ⟨.client p, f⟩ (d { port := p, tag := t } f s).2 := by
  by_cases hs : s.serving = true
  · cases he : s.engine with
    | none => left; simp [State.clientRequest, hs, he]
    | some r =>
      obtain ⟨p | _, f⟩ := r
      · by_cases hk : byteAt f 0 = k.code
        · by_cases hp : s.part = .faulted
          · exact .inr (.inl ⟨p, f, _, hs, rfl, State.clientRequest_faulted hs he hk hp⟩)
          · by_cases hf : formOk k ⟨.client p, f⟩ = true
            · cases ht : tagOf? (byteAt f 1) with
              | none => exact .inr (.inl ⟨p, f, _, hs, rfl,
                  State.clientRequest_malformed hs he hk hp (.inr ht)⟩)
              | some t => exact .inr (.inr ⟨p, f, t, hs, rfl, hp,
                  State.clientRequest_decided hs he hk hp hf ht⟩)
            · exact .inr (.inl ⟨p, f, _, hs, rfl,
                State.clientRequest_malformed hs he hk hp (.inl (by simpa using hf))⟩)
        · left; simp [State.clientRequest, hs, he, hk]
      · left; simp [State.clientRequest, hs, he]
  · left; simp [State.clientRequest, hs]

/-- A well-formed supervisor request is decided by its own checks and answered (R121, R157). -/
theorem State.supRequest_decided {f : Frame} {d : Frame → State → Decision} (hs : s.serving = true)
    (he : s.engine = some ⟨.sup, f⟩) (hk : byteAt f 0 = k.code) (hf : formOk k ⟨.sup, f⟩ = true) :
    s.supRequest k d = (d f s).1.answer k ⟨.sup, f⟩ (d f s).2 := by
  simp [State.supRequest, hs, he, hk, hf]

/-- A malformed supervisor request is answered BAD_REQUEST with no other change (R121, R157). -/
theorem State.supRequest_malformed {f : Frame} {d : Frame → State → Decision} (hs : s.serving = true)
    (he : s.engine = some ⟨.sup, f⟩) (hk : byteAt f 0 = k.code) (hf : formOk k ⟨.sup, f⟩ = false) :
    s.supRequest k d = s.answer k ⟨.sup, f⟩ (Reply.bare .badRequest) := by
  simp [State.supRequest, hs, he, hk, hf]

/-- A well-formed supervisor request, as the statements say it, is decided and answered. -/
theorem State.supRequest_asks {f : Frame} {d : Frame → State → Decision} (h : s.supAsks k f) :
    s.supRequest k d = (d f s).1.supAnswer k f (d f s).2 := by
  obtain ⟨hs, he, hk, h1, h3, hl⟩ := h
  exact State.supRequest_decided hs he hk (by simp [formOk, h3, hl, h1])

/-- A malformed supervisor request, as the statements say it. -/
theorem State.supRequest_turnedAway {f : Frame} {d : Frame → State → Decision} (h : s.supMalformed k f) :
    s.supRequest k d = s.answer k ⟨.sup, f⟩ (Reply.bare .badRequest) := by
  obtain ⟨hs, he, hk, h⟩ := h
  refine State.supRequest_malformed hs he hk ?_
  rcases h with h | h | h <;> simp [formOk, h]

/-- All that a supervisor request can do. -/
theorem State.supRequest_cases (d : Frame → State → Decision) :
    s.supRequest k d = s
      ∨ (∃ f a, s.serving = true ∧ s.engine = some ⟨.sup, f⟩ ∧ s.supRequest k d = s.answer k ⟨.sup, f⟩ a)
      ∨ ∃ f, s.serving = true ∧ s.engine = some ⟨.sup, f⟩ ∧
          s.supRequest k d = (d f s).1.answer k ⟨.sup, f⟩ (d f s).2 := by
  by_cases hs : s.serving = true
  · cases he : s.engine with
    | none => left; simp [State.supRequest, hs, he]
    | some r =>
      obtain ⟨p | _, f⟩ := r
      · left; simp [State.supRequest, hs, he]
      · by_cases hk : byteAt f 0 = k.code
        · by_cases hf : formOk k ⟨.sup, f⟩ = true
          · exact .inr (.inr ⟨f, hs, rfl, State.supRequest_decided hs he hk hf⟩)
          · exact .inr (.inl ⟨f, _, hs, rfl, State.supRequest_malformed hs he hk (by simpa using hf)⟩)
        · left; simp [State.supRequest, hs, he, hk]
  · left; simp [State.supRequest, hs]

/-- All that a STORE_STAGE row can do. -/
theorem State.stageRequest_cases (code : Byte) (len : Nat) (judge : Frame → State → Judged) :
    s.stageRequest code len judge = s
      ∨ (∃ f a, s.serving = true ∧ s.engine = some ⟨.sup, f⟩ ∧
          s.stageRequest code len judge = s.answer (Kind.storeStage len) ⟨.sup, f⟩ a)
      ∨ ∃ f, s.serving = true ∧ s.engine = some ⟨.sup, f⟩ ∧
          s.stageRequest code len judge =
            (s.stageCommand (judge f s)).1.answer (Kind.storeStage len) ⟨.sup, f⟩
              (s.stageCommand (judge f s)).2 := by
  cases he : s.engine with
  | none => left; simp [State.stageRequest, he]
  | some r =>
    simp only [State.stageRequest, he]
    split
    · rcases State.supRequest_cases (s := s) (k := Kind.storeStage len)
        (fun f t => t.stageCommand (judge f t)) with h | ⟨f, a, hs, e, h⟩ | ⟨f, hs, e, h⟩
      · exact .inl h
      · exact .inr (.inl ⟨f, a, hs, by rw [← e, he], h⟩)
      · exact .inr (.inr ⟨f, hs, by rw [← e, he], h⟩)
    · split
      · exact .inl rfl
      · rcases State.supRequest_cases (s := s) (k := Kind.storeStage len)
          (fun _ t => t.refuse .badRequest) with h | ⟨f, a, hs, e, h⟩ | ⟨f, hs, e, h⟩
        · exact .inl h
        · exact .inr (.inl ⟨f, a, hs, by rw [← e, he], h⟩)
        · exact .inr (.inl ⟨f, _, hs, by rw [← e, he], h⟩)

/-- A request on an accepted handle of its client reaches its own checks (R24). -/
theorem State.withHandle_for {c : Client} {f : Frame} {i : SlotNo} {l : Lease}
    {d : SlotNo → Lease → Decision} (h : s.handleFor c f i l) : s.withHandle c f none d = d i l := by
  obtain ⟨h4, h5, hl, hc⟩ := h
  simp [State.withHandle, h4, slotOf_byteOf, State.accept, h5, hl, hc]

/-! ### Decisions and the steady fields -/

variable (s)

theorem steady_withHandle {c : Client} {f : Frame} {before : Option Status}
    {d : SlotNo → Lease → Decision} (h : ∀ i l, (d i l).1.steady = s.steady) :
    (s.withHandle c f before d).1.steady = s.steady := by
  simp only [State.withHandle]
  split
  · rfl
  · split
    · rfl
    · split
      · rfl
      · split
        · exact h _ _
        · rfl

theorem ports_withHandle {c : Client} {f : Frame} {before : Option Status}
    {d : SlotNo → Lease → Decision} (h : ∀ i l, PortsGrow s (d i l).1) :
    PortsGrow s (s.withHandle c f before d).1 := by
  simp only [State.withHandle]
  split
  · exact .rfl
  · split
    · exact .rfl
    · split
      · exact .rfl
      · split
        · exact h _ _
        · exact .rfl

end Sys2Proof.Machine
end

