-- ==== Sys2Proof/Laws/Transactions.lean ====
section
/-! SUPPORT. What the moments of a transaction do to a port unit: the capture, the report of the flags, the fixing of
a READ's message (R101, R102, R104). -/

namespace Sys2Proof.Machine

/-- The flags stand at bits 2, 1 and 0 of the first status byte (chapter 11.1). -/
theorem statusByte1_flags (part : PartState) (u : PortUnit) :
    (statusByte1 part u).getLsbD 2 = u.overrun ∧ (statusByte1 part u).getLsbD 1 = u.frameError
      ∧ (statusByte1 part u).getLsbD 0 = u.restarted := by
  obtain ⟨_, _, _, o, f, r, _, _⟩ := u
  simp only [statusByte1]
  cases part <;> cases o <;> cases f <;> cases r <;> decide

/-- A port's own first status byte clears every flag (R102). -/
theorem PortUnit.clearCarried_own (part : PartState) (u : PortUnit) :
    u.clearCarried (statusByte1 part u) = { u with overrun := false, frameError := false, restarted := false } := by
  obtain ⟨h2, h1, h0⟩ := statusByte1_flags part u
  simp only [PortUnit.clearCarried, h2, h1, h0, Bool.and_not_self]

/-- A transaction that captures its status word and reports at once clears every flag; an unknown kind sets
FRAME_ERROR (R101, R102). -/
theorem PortUnit.report_begin (part : PartState) (k : TransKind) (u : PortUnit) :
    (u.begin part k).report =
      { u with
        overrun := false, restarted := false, frameError := decide (k = .unknown)
        transfer := some
          { kind := k, word1 := statusByte1 part u, word2 := statusByte2 u, reported := true, fixed := false,
            sending := none, headStill := true } } := by
  have h := PortUnit.clearCarried_own part { u with transfer := (u.begin part k).transfer }
  simp only [PortUnit.begin, statusByte1] at h
  simp only [PortUnit.report, PortUnit.begin, statusByte1, h, Bool.false_or, Bool.false_eq_true, if_false]

/-- A transaction reports once (R102). -/
theorem PortUnit.report_of_reported {u : PortUnit} {t : Transfer} (h : u.transfer = some t)
    (hr : t.reported = true) : u.report = u := by
  simp [PortUnit.report, h, hr]

/-- A report changes the flags and the transaction's own record alone. -/
theorem PortUnit.report_rest (u : PortUnit) :
    u.report.fifo = u.fifo ∧ u.report.queue = u.queue ∧ u.report.reserved = u.reserved
      ∧ u.report.sdo = u.sdo := by
  simp only [PortUnit.report, PortUnit.clearCarried]
  split
  · split <;> exact ⟨rfl, rfl, rfl, rfl⟩
  · exact ⟨rfl, rfl, rfl, rfl⟩

/-- No moment before the rising edge changes the transaction's kind. -/
theorem PortUnit.kind_report (u : PortUnit) :
    u.report.transfer.map Transfer.kind = u.transfer.map Transfer.kind := by
  simp only [PortUnit.report]
  split
  · rename_i t h
    split <;> simp [h]
  · rfl

theorem PortUnit.kind_fix (u : PortUnit) :
    u.fix.transfer.map Transfer.kind = u.transfer.map Transfer.kind := by
  cases h : u.transfer with
  | none => simp [PortUnit.fix, h]
  | some t => simp only [PortUnit.fix, h, Option.map_some]; split <;> rfl

/-- Fixing changes the transaction's own record alone. -/
theorem PortUnit.fix_rest (u : PortUnit) :
    u.fix.fifo = u.fifo ∧ u.fix.queue = u.queue ∧ u.fix.reserved = u.reserved ∧ u.fix.overrun = u.overrun
      ∧ u.fix.frameError = u.frameError ∧ u.fix.restarted = u.restarted ∧ u.fix.sdo = u.sdo :=
  ⟨rfl, rfl, rfl, rfl, rfl, rfl, rfl⟩

/-! ### The moments as commands -/

theorem State.setPort_port (s : State) (p : PortId) : s.setPort p (s.port p) = s := by
  simp [State.setPort, State.port, Vector.get]

theorem State.transfers_of {s : State} {p : PortId} {x : Transfer} (ha : s.alive = true)
    (hx : (s.port p).transfer = some x) : s.transfers p x.kind = true := by
  simp [State.transfers, ha, hx]

/-- Once the first status byte has been reported: it is not reported again, the second one's end fixes, and the rising
edge fixes first where the second byte ended in it (R102, R104; log 9). -/
theorem State.transact_of_reported {s : State} {p : PortId} {x : Transfer} (ha : s.alive = true)
    (hx : (s.port p).transfer = some x) (hr : x.reported = true) (b : Nat) (ending : State → State) :
    s.transact p x.kind .reports b ending = s
      ∧ s.transact p x.kind .fixes b ending = s.setPort p (s.port p).fix
      ∧ s.transact p x.kind .ends b ending = ending (if 16 ≤ b then s.setPort p (s.port p).fix else s) := by
  have ht := State.transfers_of ha hx
  have hu : (s.port p).report = s.port p := PortUnit.report_of_reported hx hr
  refine ⟨?_, ?_, ?_⟩
  · simp [State.transact, State.reportTransfer, ht, hu, State.setPort_port]
  · simp [State.transact, State.fixTransfer, ht, hu]
  · simp [State.transact, State.endTransfer, State.fixTransfer, State.reportTransfer, ht, hu, hx,
      Transfer.pastKind, hr, statusBits, State.setPort_port]

/-- Before it has been reported: every later moment reports it first, but for a rising edge before its end, which
ends the transaction with no effect (R101, R102). -/
theorem State.transact_of_unreported {s : State} {p : PortId} {x : Transfer} (ha : s.alive = true)
    (hx : (s.port p).transfer = some x) (hr : x.reported = false) (b : Nat) (ending : State → State) :
    let t := s.setPort p (s.port p).report
    s.transact p x.kind .reports b ending = t
      ∧ s.transact p x.kind .fixes b ending = t.transact p x.kind .fixes b ending
      ∧ (8 ≤ b → s.transact p x.kind .ends b ending = t.transact p x.kind .ends b ending)
      ∧ (b < 8 → s.transact p x.kind .ends b ending = s.setPort p { s.port p with transfer := none }) := by
  intro t
  have ht := State.transfers_of ha hx
  have hp : t.port p = (s.port p).report := by simp [t, State.port_setPort]
  have hx' : (s.port p).report.transfer = some { x with reported := true } := by simp [PortUnit.report, hx, hr]
  have htt : t.transfers p x.kind = true := by
    rw [State.transfers, hp, hx']; simpa [t] using ha
  have hu : (s.port p).report.report = (s.port p).report := PortUnit.report_of_reported hx' rfl
  refine ⟨?_, ?_, fun hb => ?_, fun hb => ?_⟩
  · simp [State.transact, State.reportTransfer, ht, t]
  · simp [State.transact, State.fixTransfer, ht, htt, hp, hu, t, State.setPort_setPort]
  · simp only [State.transact, State.endTransfer, State.fixTransfer, State.reportTransfer, ht, htt, hp, hu, hx, hx',
      Transfer.pastKind, kindBits, hb, Option.any_some, decide_true, Bool.or_true, if_true]
    simp [t, State.setPort_setPort]
  · simp [State.transact, State.endTransfer, ht, hx, Transfer.pastKind, kindBits, hr, Nat.not_le.mpr hb]

/-- A whole transaction is its beginning and then its end, on a port that has none in progress (R101; log 9). -/
theorem State.transact_whole {s : State} {p : PortId} (hn : (s.port p).transfer = none) (k : TransKind) (b : Nat)
    (ending : State → State) : s.transact p k .whole b ending =
      (s.transact p k .begins b ending).transact p k .ends b ending := by
  simp [State.transact, hn]

end Sys2Proof.Machine
end

