-- ==== Sys2Proof/Tests/Slice0.lean ====
section
/-! SUPPORT. The model's own tests: what WellFormed refuses, values the spec gives, one step of each family on a
small state, and for each statement a state and operands that meet its hypotheses. -/

namespace Sys2Proof.Tests

set_option maxRecDepth 20000
set_option Elab.async false

open Sys2Proof.Machine

/-! ### WellFormed -/

theorem test_wellFormed_quirks_count : (Instr.powerLoss (List.replicate 17 none)).wellFormed = false := by
  decide +kernel
theorem test_wellFormed_quirks_length :
    (Instr.startUpComplete ⟨[some (List.replicate 385 0#8)], false⟩).wellFormed = false := by decide +kernel
theorem test_wellFormed_read_bits : (Instr.readTransaction .sup .whole 7).wellFormed = false := by decide
theorem test_wellFormed_status_bits : (Instr.statusTransaction .sup .whole 0).wellFormed = false := by decide
theorem test_wellFormed_unknown_bits :
    (Instr.unknownKindTransaction .sup .whole 0x77#8 7).wellFormed = false := by decide
theorem test_wellFormed_unknown_kind :
    (Instr.unknownKindTransaction .sup .whole 0x05#8 8).wellFormed = false := by decide
theorem test_wellFormed_tick : (Instr.tick 0).wellFormed = false := by decide
theorem test_wellFormed_wait_order : (Instr.waitPoolTick [3, 3]).wellFormed = false := by decide
theorem test_wellFormed_upgrade_order : (Instr.pendingUpgradesTick [9, 9]).wellFormed = false := by decide
theorem test_wellFormed_accepts :
    ([.powerOn, .tick 1, .readTransaction (.client .a) .begins 0, .waitPoolTick [3, 4], .acquire]
      : List Instr).all Instr.wellFormed = true := by decide

/-! ### Values the spec gives (11.1, R160, chapter 5.1.1) -/

/-- "123456789". -/
def digits : List Byte := [0x31#8, 0x32#8, 0x33#8, 0x34#8, 0x35#8, 0x36#8, 0x37#8, 0x38#8, 0x39#8]

theorem test_crc8_check : crc8 digits = 0xF4#8 := by decide +kernel
theorem test_crc16_check : crc16 digits = 0x29B1#16 := by decide +kernel
theorem test_no_word_spells_a_command : decodeTableWord 8 0x30 = none := by decide

/-! ### Small states -/

/-- The state an outcome goes on with. -/
def after (o : Host.Outcome State Fault Refusal) : State :=
  match o with
  | .next t => t
  | .fault _ | .refused _ => State.reset

/-- DEFINED entries: SHAREABLE with small terms, EXCLUSIVE_ONLY without waiting, and one that yields. -/
def entry7 : Fields :=
  { kind := .shareable, holderLimit := 2, admitSet := 0b0111#4, defaultTerm := 10, maxTerm := 20, warnLead := 2,
    grace := 3, renewLimit := 1, contention := .hold, waitAllowed := true, label := none }

def entry8 : Fields := { entry7 with kind := .exclusiveOnly, holderLimit := 1, waitAllowed := false }

def yielding : Fields := { entry7 with contention := .yields, renewLimit := 0 }

/-- READY in epoch 5: entries 7, 8 and 11 DEFINED, 9 DAMAGED, the others UNDEFINED. -/
def ready : State :=
  (((({ State.reset with part := .ready, epoch := 5, active := some .h0 } : State).setEntry 7
    (.defined entry7)).setEntry 8 (.defined entry8)).setEntry 9 .damaged).setEntry 11 (.defined yielding)

/-- The client of port A with tag 0, and one of port B. -/
def ann : Client := { port := .a, tag := 0 }
def bob : Client := { port := .b, tag := 1 }

/-- A lease of a client. -/
def lease (c : Client) (n : ResNo) (m : Mode) : Lease :=
  { resource := n, client := c, mode := m, fence := { epoch := 5, seq := 1 }, granted := 10, remaining := 10,
    renewals := 0, warned := false, owed := none }

/-- A state with a slot set, and with the resource's holders and last sequence. -/
def withSlot (s : State) (i : SlotNo) (b : SlotBody) : State := s.setSlot i { generation := 4#8, body := b }
def withHolders (s : State) (n : ResNo) (hs : List SlotNo) : State :=
  s.setRecord n { s.record n with holders := hs, lastSeq := 1 }

/-- Ann holds slot 3 on resource 7, SHARED; or EXCLUSIVE; or revoked with a grace of 2. -/
def shared : State := withHolders (withSlot ready 3 (.active (lease ann 7 .shared) none)) 7 [3]
def held : State := withHolders (withSlot ready 3 (.active (lease ann 7 .exclusive) none)) 7 [3]
def revoked : State := withHolders (withSlot ready 3 (.revoking (lease ann 7 .shared) 2)) 7 [3]

/-- Bob's wait on a resource, entry 5, reserving slot 6. -/
def bobWait (n : ResNo) (m : Mode) : Wait := { client := bob, resource := n, mode := m, rid := 0x44#8 }
def withWait (s : State) (n : ResNo) (m : Mode) (lim : Limit) : State :=
  ((s.setSlot 6 { generation := 9#8, body := .reserved { resource := n, client := bob, mode := m, term := 0 } }
    ).setWait 5 (.queued (bobWait n m) lim 6)).setRecord n { s.record n with queue := [5] }

/-- Ann holds EXCLUSIVE and bob waits; the same with the resource free for him; and both SHARED. -/
def waited : State := withWait held 7 .shared (.ticks 2)
def servable : State := withWait ready 7 .shared (.ticks 0)
def two : State :=
  withHolders (withSlot shared 4 (.active (lease bob 7 .shared) none)) 7 [3, 4]

/-- Ann's upgrade is pending with bob beside her, and as the sole holder. -/
def upgrading : State :=
  (two.setBody 3 (.active (lease ann 7 .shared) (some (.ticks 0)))).setRecord 7
    { two.record 7 with upgradePending := some 3 }
def upgradable : State :=
  (shared.setBody 3 (.active (lease ann 7 .shared) (some (.ticks 4)))).setRecord 7
    { shared.record 7 with upgradePending := some 3 }

/-- An activation of resource 7 is pending. -/
def listed (image : Entry) : Activation :=
  { resource := 7, image := image, crc := 0#16, revoke := false, state := .pending }
def pendingAct (s : State) (image : Entry) : State :=
  (s.setActivations [listed image]).setRecord 7 { s.record 7 with activationPending := true }

/-- Resource 7 without a holder, bob's SHARED wait at its head, and an activation of it pending. -/
def drained (image : Entry) : State := pendingAct (withWait ready 7 .shared .indefinite) image

/-- Ann holds resource 7 and owes an EXPIRY_WARNING; her slot 9 and her wait entry 2 are ENDED; bob waits; and a notice
for her stands in port A's queue. -/
def busy : State :=
  let l : Lease := { lease ann 7 .exclusive with owed := some .expiryWarning }
  let e : Lease := { lease ann 11 .shared with remaining := 0, owed := some .leaseEnded }
  let s := withWait (withHolders (withSlot (withSlot ready 3 (.active l none)) 9 (.ended e none .expired)) 7 [3])
    7 .shared (.ticks 2)
  let s := (s.setWait 2 (.ended { bobWait 8 .exclusive with client := ann } .refused)).setSide .a
    { owed := [.slot 9, .wait 2, .slot 3], policy := .release }
  s.setPort (.client .a)
    { PortUnit.initial with queue := [waitEndedNotice { bobWait 11 .shared with client := ann } 0x01#8] }

/-- The same with no room for a notice on port A. -/
def crammed : State :=
  busy.setPort (.client .a)
    { PortUnit.initial with queue := List.replicate 12 (waitEndedNotice (bobWait 11 .shared) 0x01#8) }

/-- A request in hand. -/
def asks (s : State) (p : PortId) (f : Frame) : State := { s with engine := some { port := p, frame := f } }
def annAsks (s : State) (f : Frame) : State := asks s (.client .a) f
def supSends (s : State) (f : Frame) : State := asks s .sup f

def frameAcquire (n mode : Byte) (term limit : Nat) : Frame :=
  [0x01#8, 0#8, 0x33#8, 0#8, n, mode] ++ be16 term ++ be16 limit
def frameHandle (kind : Byte) (rest : List Byte) : Frame := [kind, 0#8, 0x33#8, 0#8, 3#8, 4#8] ++ rest
def frameOf (kind : Byte) (rest : List Byte) : Frame := [kind, 0#8, 0x33#8, 0#8] ++ rest

/-- The store with an operation running, or with a stage, over an array. -/
def running (s : State) (op : StoreOp) : State := s.setStore { s.store with running := some op }
def staged (s : State) (st : Stage) : State := s.setStore { s.store with stage := st }

/-- A valid header page, base 64, prescale 4, every policy RELEASE, one mark used. -/
def headerCells (h : HPage) (base : Nat) (m : List Host.Cell) : List Host.Cell :=
  Memory.write (Memory.write
    (Memory.writeBytes m (headerAddr h) (headerHead base [4#8, 0#8, 0#8, 0#8, 0#8])) (headerAddr h + 9) 0#8)
    (headerAddr h + 16) 0#8

def imageBytes : List Byte :=
  [0x02#8, 2#8, 7#8, 0#8, 10#8, 0#8, 20#8, 2#8, 3#8, 0#8, 0#8, 1#8, 1#8, 0x41#8]
    ++ List.replicate 8 0#8

/-- The bytes of the last message of a port's queue. -/
def lastMessage (s : State) (p : PortId) : List Byte :=
  ((s.port p).queue.getLast?.map Message.bytes).getD []

/-! ### One step of each family -/

theorem test_acquire_response :
    lastMessage (after (exec .acquire (annAsks ready (frameAcquire 7#8 1#8 0 0)))) (.client .a)
      = [0x81#8, 0#8, 0x33#8, 0x01#8, 7#8, 0#8, 0#8, 0#8, 5#8, 0#8, 1#8, 0#8, 10#8] := by decide +kernel
theorem test_acquire_queued :
    lastMessage (after (exec .acquire (annAsks (withWait ready 7 .exclusive .indefinite)
      (frameAcquire 7#8 1#8 0 9)))) (.client .a)
      = [0x81#8, 0#8, 0x33#8, 0x02#8, 7#8, 2#8] := by decide +kernel
theorem test_release_grants_next :
    ((after (exec .release (annAsks waited (frameHandle 0x03#8 [])))).slot 6).body.code = 0x02#8 := by
  decide +kernel
theorem test_release_grants_before_answering :
    lastMessage (after (exec .release (annAsks waited (frameHandle 0x03#8 [])))) (.client .b)
      = [0xC1#8, 1#8, 0x44#8, 0#8, 6#8, 9#8, 7#8, 1#8, 0#8, 5#8, 0#8, 2#8, 2#8, 0#8, 10#8, 0#8, 0#8, 0#8] := by
  decide +kernel
theorem test_renew_response :
    lastMessage (after (exec .renew (annAsks shared (frameHandle 0x04#8 [0#8, 15#8])))) (.client .a)
      = [0x84#8, 0#8, 0x33#8, 0#8, 3#8, 4#8, 0#8, 15#8, 1#8] := by decide +kernel
theorem test_upgrade_response :
    lastMessage (after (exec .upgrade (annAsks shared (frameHandle 0x05#8 [0#8, 0#8])))) (.client .a)
      = [0x85#8, 0#8, 0x33#8, 0x03#8, 3#8, 4#8, 0#8, 5#8, 0#8, 2#8] := by decide +kernel
theorem test_verify_current :
    lastMessage (after (exec .verify (annAsks shared (frameOf 0x08#8 [7#8, 0#8, 5#8, 0#8, 1#8])))) (.client .a)
      = [0x88#8, 0#8, 0x33#8, 0x05#8, 7#8, 0#8, 5#8, 0#8, 1#8, 1#8, 2#8, 0#8] := by decide +kernel
theorem test_list_mine :
    lastMessage (after (exec .listMine (annAsks shared (frameOf 0x0B#8 [])))) (.client .a)
      = [0x8B#8, 0#8, 0x33#8, 0#8, 1#8, 0#8, 3#8, 4#8, 7#8, 1#8] := by decide +kernel
theorem test_detach_response :
    lastMessage (after (exec .detach (annAsks shared (frameOf 0x0C#8 [])))) (.client .a)
      = [0x8C#8, 0#8, 0x33#8, 0#8, 0#8, 0#8, 0#8, 1#8] := by decide +kernel
theorem test_revoke_by_grace :
    (((after (exec .revoke (supSends shared (frameOf 0x25#8 [3#8, 4#8, 0#8, 9#8])))).slot 3).body.grace?)
      = some 9 := by decide +kernel
theorem test_purge_response :
    lastMessage (after (exec .purgeClient (supSends shared (frameOf 0x27#8 [0#8, 0#8])))) .sup
      = [0xA7#8, 0#8, 0x33#8, 0#8, 1#8, 0#8, 1#8, 0#8] := by decide +kernel
theorem test_status_length :
    (lastMessage (after (exec .status (supSends ready (frameOf 0x20#8 [])))) .sup).length = 23 := by
  decide +kernel
theorem test_tick_after_4096_periods :
    (after (exec (.tick 4096) { ready with prescale := 1 })).leaseTicks = 1 := by decide +kernel
theorem test_no_tick_when_frozen :
    (after (exec (.tick 70000) { ready with run := .frozen })).leaseTicks = 0 := by decide +kernel
theorem test_start_up_of_an_erased_array :
    lastMessage (after (exec (.startUpComplete ⟨[], false⟩) State.reset)) .sup
      = [0xE4#8, 0#8, 0#8, 0#8, 0#8, 0#8, 3#8, 0#8, 0#8, 1#8, 0#8, 0#8, 0#8, 0xFF#8, 0#8, 5#8, 0#8] := by
  decide +kernel
theorem test_start_up_of_a_valid_page :
    (startUpWork (headerCells .h0 64 []) []).epoch = 66 := by decide +kernel
theorem test_unknown_kind_response :
    lastMessage (after (exec .unknownRequestKind (annAsks ready (frameOf 0x77#8 [])))) (.client .a)
      = [0xFF#8, 0#8, 0x33#8, 0x10#8] := by decide +kernel
theorem test_write_then_read_status :
    (after (exec (.statusTransaction (.client .a) .whole 24)
      (after (exec (.writeTransaction (.client .a) .whole
        (4#8 :: (frameOf 0x0B#8 [] ++ [crc8 (4#8 :: frameOf 0x0B#8 [])]))) ready)))).port (.client .a)
      = { PortUnit.initial with
          fifo := [frameOf 0x0B#8 []], sdo := [0x40#8, 0x60#8, 0x00#8] } := by decide +kernel
theorem test_program_entry_not_blank :
    (after (exec (.programEntryComplete []) (running { ready with array := [(170, 1#8)] }
      (.programEntry 7 imageBytes)))).store.fault = some .notBlank := by decide +kernel
theorem test_program_entry_defines :
    (classify (imageOf (after (exec (.programEntryComplete [])
      (running ready (.programEntry 7 imageBytes)))).array 7)).code = 0x01#8 := by decide +kernel
theorem test_program_entry_result_is_the_entry :
    lastMessage (after (exec (.programEntryComplete []) (running { ready with array := [(170, 1#8)] }
      (.programEntry 7 imageBytes)))) .sup
      = [0xE1#8, 0#8, 0#8, 1#8, 1#8, 7#8, 1#8, 7#8, 0#8, 0#8, 0#8, 0#8, 0#8, 0#8] := by decide +kernel
theorem test_program_entry_cut_short_leaves_no_other_image :
    (after (exec (.resetAssert [some (sealImage (imageBytes.set 1 1#8))])
      (running ready (.programEntry 7 imageBytes)))).array = [] := by decide +kernel
theorem test_due_ticks_wait_while_frozen :
    (after (exec .leaseTableTick { shared with run := .frozen, leaseTicks := 1 })).leaseTicks = 1 := by
  decide +kernel
theorem test_read_fixes_after_the_status_word :
    ((after (exec (.readTransaction (.client .a) .fixes 0)
      ((after (exec (.readTransaction (.client .a) .begins 0) ready)).pushMessage (.client .a)
        (responseTo Kind.listMine ⟨.client .a, frameOf 0x0B#8 []⟩ (Reply.bare .ok))))).port
      (.client .a)).transfer.map (fun x => x.sending.isSome) = some true := by decide +kernel
theorem test_flags_clear_at_the_end_of_the_first_status_byte :
    let word (s : State) := (s.port (.client .a)).restarted
    let s : State := ready.setPort (.client .a) { PortUnit.initial with restarted := true }
    let t := after (exec (.readTransaction (.client .a) .begins 0) s)
    (word t, word (after (exec (.readTransaction (.client .a) .reports 0) t)),
      word (after (exec (.readTransaction (.client .a) .ends 7) t))) = (true, false, true) := by decide +kernel
theorem test_echoed_fields_are_copied_or_cleared_whole :
    (responseTo Kind.release ⟨.client .a, frameOf 3#8 [9#8]⟩ (Reply.bare .badRequest)).body = [0#8, 0#8]
      ∧ (responseTo Kind.verify ⟨.client .a, frameOf 8#8 [9#8, 1#8, 2#8]⟩ (Reply.bare .badRequest)).body
        = [9#8, 0#8, 0#8, 0#8, 0#8] := by decide +kernel
theorem test_settings_cut_short_in_the_last_erase_leaves_what_was_done :
    let s := { ready with array := headerCells .h0 64 [] }
    let m := (after (exec (.resetAssert [none, none, none, none, some [0#8, 0#8, 0xFF#8]])
      (running s (.writeSettings Settings.defaults)))).array
    (validPage s.array .h0, validPage m .h0, Memory.readBytes m (headerAddr .h0) 3)
      = (true, false, [0#8, 64#8, 0xFF#8]) := by decide +kernel
/-- A cleanup whose erase sets bits so that base 0 with prescale 4 would read as base 272 with prescale 37, of the same
CRC-16 (R151, R155; log 6): the page keeps its base, and the next start-up's epoch is higher. -/
theorem test_a_failed_cleanup_leaves_no_higher_base :
    let m := Memory.writeBytes (headerCells .h0 240 (headerCells .h1 0 [])) (headerAddr .h0 + 16)
      (List.replicate 40 0#8)
    let raised : List Byte := [1#8, 0x10#8, 33#8, 0#8, 0#8, 0#8, 0#8, 0#8, 0#8, 0#8]
    let r := startUpWork m [some raised]
    (headerValid (erasedWith m (headerAddr .h1) 10 raised), r.epoch, r.outcome.code, validPage r.array .h1,
        headerBase (headerOf r.array .h1), (startUpWork r.array []).epoch)
      = (true, 281, 0x03#8, true, 0, 282) := by decide +kernel
theorem test_a_read_failure_in_passing_is_mended_by_restart :
    let s : State := { State.reset with array := headerCells .h0 64 [] }
    let t := after (exec (.startUpComplete ⟨[], true⟩) s)
    (t.part, (after (exec (.startUpComplete ⟨[], false⟩) t.startUpBegin)).epoch) = (.faulted, 66) := by
  decide +kernel
theorem test_blank_check_result :
    lastMessage (after (exec .blankCheckComplete (running ready (.blankCheck none)))) .sup
      = [0xE1#8, 0#8, 0#8, 0#8, 4#8, 0xFF#8, 0#8, 0#8, 0#8, 0#8, 0#8, 0#8, 0#8, 0#8] := by decide +kernel

/-! ### The statements' hypotheses can be met -/

/-- The queue and the step. -/
theorem test_hyps_FrontCommandIsExecuted :
    ({ ready with pending := [.dispatch, .tick 1] } : State).pending = .dispatch :: [.tick 1] := rfl
theorem test_hyps_EveryCommandGoesOn : ready.pending = [] := rfl

/-- The states that the statements' hypotheses are shown on obey the laws of the tables. -/
theorem held_lawful : held.lawful := lawful_of_check (by decide +kernel)
theorem busy_lawful : busy.lawful := lawful_of_check (by decide +kernel)
theorem servable_lawful : servable.lawful := lawful_of_check (by decide +kernel)
theorem upgradable_lawful : upgradable.lawful := lawful_of_check (by decide +kernel)
theorem upgrading_lawful : upgrading.lawful := lawful_of_check (by decide +kernel)
theorem drained_lawful : (drained .undefined).lawful ∧ (drained (.defined entry8)).lawful :=
  ⟨lawful_of_check (by decide +kernel), lawful_of_check (by decide +kernel)⟩

/-- The laws that every step keeps, on a state with a lease and a step that goes on. -/
theorem test_hyps_LeaseLawKept : ∃ t, leaseLaw busy ∧ step busy = .next t := ⟨_, busy_lawful.1, rfl⟩
theorem test_hyps_OwedLawKept : ∃ t, leaseLaw busy ∧ owedLaw busy ∧ step busy = .next t :=
  ⟨_, busy_lawful.1, busy_lawful.2.2.2.1, rfl⟩
theorem test_hyps_OwedLawKept_delivery :
    ∃ t, activationLaw crammed ∧ deliveryLaw crammed ∧ (crammed.side .a).owed ≠ [] ∧ step crammed = .next t :=
  ⟨_, activationLaw_of_check (by decide +kernel), deliveryLaw_of_check (by decide +kernel), by decide +kernel, rfl⟩
theorem test_hyps_ServiceLawKept_mark :
    let s := pendingAct shared .undefined
    ∃ t, leaseLaw s ∧ activationLaw s ∧ markLaw s ∧ step s = .next t :=
  have h : (pendingAct shared .undefined).lawful := lawful_of_check (by decide +kernel)
  ⟨_, h.1, h.2.2.2.2, markLaw_of_check (by decide +kernel), rfl⟩
theorem test_hyps_ServiceLawKept : ∃ t, leaseLaw waited ∧ serviceLaw waited ∧ step waited = .next t :=
  have h : waited.lawful := lawful_of_check (by decide +kernel)
  ⟨_, h.1, ⟨h.2.1, h.2.2.1, headLaw_of_check (by decide +kernel)⟩, rfl⟩
theorem test_hyps_EpochLawKept :
    let s : State :=
      { running ready (.writeSettings Settings.defaults) with array := headerCells .h0 4 [] }
    ∃ t, arrayLaw s ∧ stagedLaw s ∧ epochLaw s ∧ step s = .next t := by
  refine ⟨_, by unfold arrayLaw; decide +kernel, ⟨fun op h => ?_, fun op h => ?_, fun h => ?_⟩, fun _ => ?_, rfl⟩
  · cases h; exact ⟨rfl, by decide, by decide, by decide⟩
  · rcases h with h | h <;> cases h
  · cases h
  · exact ⟨by decide, .h0, rfl, by decide +kernel, by decide +kernel⟩
theorem test_hyps_ExclusiveStandsAlone : leaseLaw held := held_lawful.1
theorem test_hyps_CapLawKept : ∃ t, leaseLaw held ∧ capLaw held ∧ step held = .next t := by
  refine ⟨_, held_lawful.1, fun c => ?_, rfl⟩
  have h : ∀ c : Client, held.slotCount c ≤ 16 ∧ (held.waitsOf c).length ≤ 2 := by
    rintro ⟨p, g⟩; revert g; cases p <;> decide +kernel
  exact h c
theorem test_hyps_ArrayLawKept :
    ∃ t, arrayLaw { ready with array := [(7, 1#8)] } ∧ step { ready with array := [(7, 1#8)] } = .next t :=
  ⟨_, by unfold arrayLaw; decide +kernel, rfl⟩
theorem test_hyps_TimebaseLawKept : ∃ t, timebaseLaw ready ∧ step ready = .next t :=
  ⟨_, by unfold timebaseLaw; decide +kernel, rfl⟩
theorem test_hyps_PortLawKept : ∃ t, portLaw ready ∧ step ready = .next t := by
  have hp : ∀ p, ready.port p = PortUnit.initial := State.reset_port
  refine ⟨_, ⟨fun h => by simp [ready] at h, fun p => ?_, trivial⟩, rfl⟩
  rw [hp]; rcases p with (_ | _ | _ | _) | _ <;> decide
theorem test_hyps_PipelineLawKept : ∃ t, pipelineLaw ready ∧ step ready = .next t :=
  ⟨_, ⟨fun _ => ⟨rfl, rfl⟩, fun h => absurd h (by decide), by decide, fun _ _ h => by cases h⟩, rfl⟩
theorem test_hyps_ActivationLawKept : ∃ t, activationLaw ready ∧ step ready = .next t := by
  have hr : ∀ n, ready.record n = Record.empty := State.reset_record
  exact ⟨_, ⟨by decide +kernel, fun n => by rw [hr]; rfl⟩, rfl⟩
theorem test_hyps_SequencesOnlyRise : ∃ t, step ready = .next t := ⟨_, rfl⟩

/-- Supply, reset and start-up. -/
theorem test_hyps_StartUpBegins :
    (({ ready with powered := false } : State).powered = false ∧ ready.resetLow = false)
    ∧ (ready.powered = true ∧ ({ ready with resetLow := true } : State).resetLow = true)
    ∧ (supSends ready (frameOf 0x30#8 [])).supAsks Kind.restart (frameOf 0x30#8 []) := by decide +kernel
theorem test_hyps_StartUpBegins_initHeader :
    let s := running { ready with part := .faulted } (.initHeader 65534)
    s.serving = true ∧ s.store.running = some (.initHeader 65534)
      ∧ (s.runInitHeader 65534 []).fault = none := by decide +kernel
theorem test_hyps_ResetAndPowerLossAbandon :
    (ready.resetLow = false ∧ ready.powered = true ∧ ready.alive = true ∧ Memory.wf ready.array)
      ∧ ({ ready with powered := false }.alive = false)
      ∧ (ready.store.running = none ∧ ready.part ≠ .starting ∧ State.reset.part = .starting) := by decide +kernel
theorem test_hyps_ResetAndPowerLossAbandon_running :
    let now (op : StoreOp) : Option StoreOp := (running ready op).store.running
    (now (.blankCheck (some 15)) = some (.blankCheck (some 15)) ∧ now .scanCrc = some .scanCrc)
      ∧ (now (.programEntry 255 imageBytes) = some (.programEntry 255 imageBytes) ∧ imageBytes.length = 22)
      ∧ (now (.erasePage 15) = some (.erasePage 15) ∧ (255 : ResNo).val / 16 = (15 : PageNo).val)
      ∧ now .eraseDirectory = some .eraseDirectory
      ∧ now (.writeSettings Settings.defaults) = some (.writeSettings Settings.defaults)
      ∧ now (.initHeader 65534) = some (.initHeader 65534) := by decide +kernel
/-- An ERASE_PAGE cut short leaves an entry erased, DAMAGED or as before (R148). -/
theorem test_erase_page_cut_short :
    let m := Memory.writeBytes (Memory.writeBytes [] (entryAddr 7) (sealImage imageBytes)) (entryAddr 8)
      (sealImage imageBytes)
    let t := after (exec (.resetAssert [some (List.replicate 192 0xFF#8 ++ [1#8, 0xFF#8] ++ List.replicate 190 0#8)])
      (running { ready with array := m } (.erasePage 0)))
    (blank (imageOf t.array 7), classify (imageOf t.array 8)) = (true, .damaged) := by decide +kernel
theorem test_hyps_StartUpCompletes :
    let s : State := { State.reset with array := headerCells .h0 64 [] }
    (s.alive = true ∧ s.part = .starting ∧ Memory.wf s.array)
      ∧ (after (exec (.startUpComplete ⟨[], false⟩) s)).part = .ready
      ∧ (after (exec (.startUpComplete ⟨[], true⟩) s)).part = .faulted := by decide +kernel
theorem test_hyps_EpochOpened_pages :
    let a := headerCells .h0 64 []
    let b := headerCells .h1 64 []
    let both := headerCells .h1 65 a
    (validPage [] .h0 = false ∧ validPage [] .h1 = false) ∧ (validPage a .h0 = true ∧ validPage a .h1 = false)
      ∧ (validPage b .h0 = false ∧ validPage b .h1 = true)
      ∧ (validPage both .h0 = true ∧ validPage both .h1 = true
        ∧ headerBase (headerOf both .h0) < headerBase (headerOf both .h1))
      ∧ (headerBase (headerOf (headerCells .h1 64 a) .h1) ≤ headerBase (headerOf (headerCells .h1 64 a) .h0)) := by
  decide +kernel
theorem test_hyps_EpochOpened_outcomes :
    let spent := headerCells .h0 65534 []
    let last := headerCells .h0 65533 []
    selectHeader [] = none
      ∧ (selectHeader spent = some .h0 ∧ 65535 < lastEpoch spent .h0 + 1)
      ∧ (selectHeader last = some .h0 ∧ lastEpoch last .h0 + 1 ≤ 65535
        ∧ (runPlan (headerWork last .h0) [] last).failed = none)
      ∧ (runPlan (headerWork last .h0) [some [0xFF#8]] last).failed = some 3 := by decide +kernel
theorem test_hyps_RestartOpensHigherEpoch :
    let m := headerCells .h0 64 []
    Memory.wf m ∧ (startUpWork m []).part = .ready
      ∧ (startUpWork (startUpWork m [some [0x00#8]]).array [none]).part = .ready := by decide +kernel
theorem test_hyps_CutShortStartNeverRepeats :
    let m := headerCells .h0 64 []
    Memory.wf m ∧ selectHeader m = some .h0
      ∧ (startUpWork (interruptPlan (startUpPlan m) (List.replicate 0 none) m) []).part = .ready
      ∧ (startUpWork (interruptPlan (startUpPlan m) (List.replicate 1 none) m) []).part = .ready
      ∧ (startUpWork (interruptPlan (startUpPlan m) [some [0xF0#8]] m) [some [0x00#8]]).part = .ready := by
  decide +kernel

/-- Transactions and dispatch. -/
def sentFrame : List Byte := 4#8 :: (frameOf 0x0B#8 [] ++ [crc8 (4#8 :: frameOf 0x0B#8 [])])
def fullFifo : State :=
  ready.setPort (.client .a) { PortUnit.initial with fifo := List.replicate 4 (frameOf 0x0B#8 []) }
def message : Message := { isNotice := false, code := 0x81#8, tag := 0#8, rid := 1#8, status := 0#8, body := [] }
def oneMessage : State := ready.setPort (.client .a) { PortUnit.initial with queue := [message] }
def reading (reported fixed still : Bool) : State :=
  ready.setPort (.client .a)
    { PortUnit.initial with
      queue := [message]
      transfer := some { kind := .read, word1 := 0x40#8, word2 := 0x80#8, reported := reported, fixed := fixed,
                         sending := if fixed then some message else none, headStill := still } }

theorem test_hyps_WriteDecidedInOrder :
    (ready.alive = true ∧ (ready.port (.client .a)).transfer = none)
      ∧ (ready.part ≠ .starting ∧ frameOf? (sentFrame ++ [0#8]) = none)
      ∧ (frameOf? sentFrame = some (frameOf 0x0B#8 []) ∧ (ready.port (.client .a)).fifo.length < 4)
      ∧ (fullFifo.part ≠ .starting ∧ 4 ≤ (fullFifo.port (.client .a)).fifo.length)
      ∧ State.reset.part = .starting := by decide +kernel
theorem test_hyps_ReadRemovesCompleteHead :
    (oneMessage.alive = true ∧ (oneMessage.port (.client .a)).transfer = none)
      ∧ (oneMessage.port (.client .a)).queue = message :: [] ∧ (ready.port (.client .a)).queue = []
      ∧ 63 < 8 * (message.bytes.length + 4) ∧ 8 * (message.bytes.length + 4) ≤ 64 := by decide +kernel
theorem test_hyps_ReadRemovesCompleteHead_delivery :
    let s := busy.setStore { busy.store with held := [storeDone .scanCrc none []] }
    let s := s.setPort .sup { PortUnit.initial with queue := List.replicate 6 (storeSkipped .scanCrc) }
    (s.serving = true ∧ (s.port .sup).transfer = none ∧ (s.port .sup).queue ≠ [] ∧ s.heldNotices ≠ 0)
      ∧ (busy.serving = true ∧ (busy.port (.client .a)).transfer = none ∧ (busy.port (.client .a)).queue ≠ []
        ∧ (busy.side .a).owed ≠ [] ∧ (crammed.port (.client .a)).queue ≠ []) := by decide +kernel
theorem test_hyps_ReadRemovesCompleteHead_law : owedLaw busy ∧ owedLaw crammed :=
  ⟨busy_lawful.2.2.2.1, owedLaw_of_check (by decide +kernel)⟩
/-- A READ that makes room lets the first owed notices in, in the order they are owed, as far as there is room. -/
theorem test_a_read_delivers_what_is_owed :
    let t := after (exec (.readTransaction (.client .a) .whole 96) crammed)
    ((t.port (.client .a)).queue.length, (t.port (.client .a)).queue.getLast?.map Message.code,
        (t.side .a).owed, (t.slot 9).body.code) = (12, some 0xC6#8, [.wait 2, .slot 3], 0x00#8) := by decide +kernel
theorem test_hyps_TransactionsInTheirMoments :
    let x (s : State) := (s.port (.client .a)).transfer
    (ready.alive = true ∧ x ready = none ∧ 7 < 8 ∧ 8 ≤ 8 ∧ 0x77#8 ≠ 0x02#8 ∧ 0x77#8 ≠ 0x03#8 ∧ 0x77#8 ≠ 0x05#8)
      ∧ (x (reading false false true)).map Transfer.reported = some false
      ∧ ((x (reading true false true)).map Transfer.reported = some true
        ∧ (x (reading true false true)).map Transfer.fixed = some false
        ∧ (x (reading true false true)).bind Transfer.sending = none ∧ 15 < 16 ∧ 16 ≤ 16)
      ∧ ((x (reading true true false)).map Transfer.fixed = some true
        ∧ (x (reading true true false)).map Transfer.headStill = some false)
      ∧ ((x (reading true true true)).map Transfer.headStill = some true
        ∧ (reading true true true).serving = true
        ∧ (x (reading true true true)).bind Transfer.sending = some message
        ∧ 63 < 8 * (message.bytes.length + 4) ∧ 8 * (message.bytes.length + 4) ≤ 64) := by
  decide +kernel
theorem test_hyps_DispatchTakesNextEligible :
    (ready.serving = true ∧ ready.engine = none)
      ∧ (portsAfter fullFifo.rotation = [] ++ .client .a :: [.client .b, .client .c, .client .d, .sup]
        ∧ fullFifo.eligible (.client .a) = true
        ∧ (fullFifo.port (.client .a)).fifo = frameOf 0x0B#8 [] :: List.replicate 3 (frameOf 0x0B#8 [])) := by
  decide +kernel
theorem test_hyps_DispatchTakesNextEligible_none (p : PortId) : ready.eligible p = false := by
  have h : ready.port p = PortUnit.initial := State.reset_port p
  simp [State.eligible, h, PortUnit.initial]

/-- Requests turned away. -/
theorem test_hyps_UnknownKindAnswered :
    let s := annAsks ready (frameOf 0x0E#8 [])
    let u := supSends ready (frameOf 0x31#8 [])
    (s.serving = true ∧ s.engine = some ⟨.client .a, frameOf 0x0E#8 []⟩
        ∧ knownKind (.client .a) (byteAt (frameOf 0x0E#8 []) 0) = false)
      ∧ (u.engine = some ⟨.sup, frameOf 0x31#8 []⟩ ∧ knownKind .sup (byteAt (frameOf 0x31#8 []) 0) = false)
      ∧ { s with part := .faulted }.serving = true := by decide +kernel
theorem test_hyps_RequestsTurnedAway :
    let s := annAsks { ready with part := .faulted } (frameOf 0x0B#8 [])
    (Instr.listMine ∈ clientRows ∧ rowKind .listMine = some Kind.listMine)
      ∧ (s.serving = true ∧ s.part = .faulted ∧ s.engine = some ⟨.client .a, frameOf 0x0B#8 []⟩
        ∧ byteAt (frameOf 0x0B#8 []) 0 = Kind.listMine.code)
      ∧ (annAsks ready [0x0B#8, 8#8, 0#8, 0#8]).clientMalformed Kind.listMine .a [0x0B#8, 8#8, 0#8, 0#8]
      ∧ (annAsks ready (frameOf 0x0B#8 [0#8])).clientMalformed Kind.listMine .a (frameOf 0x0B#8 [0#8])
      ∧ (supSends ready [0x30#8, 1#8, 0#8, 0#8]).supMalformed Kind.restart [0x30#8, 1#8, 0#8, 0#8]
      ∧ (supSends ready [0x20#8, 0#8, 0#8, 1#8]).supMalformed Kind.status [0x20#8, 0#8, 0#8, 1#8] := by
  decide +kernel

/-- ACQUIRE, CANCEL_WAIT, RELEASE. -/
theorem test_hyps_AcquireGrantsAtOnce :
    let f := frameAcquire 7#8 1#8 0 0
    let s := annAsks ready f
    s.clientAsks Kind.acquire ann f ∧ s.part = .ready ∧ modeOf? (byteAt f 5) = some .shared
      ∧ s.entry f.resource = .defined entry7 ∧ entry7.admits .a = true
      ∧ ¬(Mode.shared = .shared ∧ entry7.kind = .exclusiveOnly) ∧ s.holds ann f.resource = false
      ∧ s.waitOf? ann f.resource = none ∧ s.slotCount ann < 16 ∧ (s.slot 0).body = .free
      ∧ (∀ k < (0 : SlotNo), (s.slot k).body ≠ .free) ∧ s.grantable f.resource .shared = true
      ∧ (s.record f.resource).queue = []
      ∧ 10 = (if f.word 6 = 0 then entry7.defaultTerm else min (f.word 6) entry7.maxTerm) := by decide +kernel
theorem test_hyps_AcquireQueues :
    let f := frameAcquire 7#8 2#8 65535 65535
    let s := annAsks (withWait ready 7 .shared .indefinite) f
    s.clientAsks Kind.acquire ann f ∧ s.part = .ready ∧ modeOf? (byteAt f 5) = some .exclusive
      ∧ s.entry f.resource = .defined entry7 ∧ entry7.admits .a = true
      ∧ s.holds ann f.resource = false ∧ s.waitOf? ann f.resource = none
      ∧ (s.record f.resource).fenceSpent = false ∧ s.slotCount ann < 16 ∧ (s.slot 0).body = .free
      ∧ (∀ k < (0 : SlotNo), (s.slot k).body ≠ .free)
      ∧ ¬(s.grantable f.resource .exclusive = true ∧ (s.record f.resource).queue = []) ∧ f.word 8 ≠ 0
      ∧ entry7.waitAllowed = true ∧ (s.waitsOf ann).length < 2 ∧ s.wait 0 = .free
      ∧ (∀ k < (0 : WaitNo), s.wait k ≠ .free) := by decide +kernel
theorem test_hyps_AcquireRefusedInOrder_form :
    let bad := frameAcquire 7#8 3#8 0 0
    let f (n : Byte) := frameAcquire n 1#8 0 0
    ((annAsks ready bad).clientAsks Kind.acquire ann bad ∧ modeOf? (byteAt bad 5) = none)
      ∧ ((annAsks { ready with part := .spent } (f 7#8)).clientAsks Kind.acquire ann (f 7#8)
        ∧ modeOf? (byteAt (f 7#8) 5) = some .shared)
      ∧ ready.entry 0 = .undefined ∧ ready.entry 9 = .damaged
      ∧ (ready.entry 7 = .defined entry7 ∧ entry7.admits .d = false)
      ∧ (ready.entry 8 = .defined entry8 ∧ entry8.admits .a = true ∧ entry8.kind = .exclusiveOnly)
      ∧ shared.holds ann 7 = true
      ∧ (waited.waitOf? bob 7).isSome = true := by decide +kernel
theorem test_hyps_AcquireRefusedInOrder_limits :
    let spent := ready.setRecord 7 { ready.record 7 with fenceSpent := true }
    let one : SlotBody := .active (lease ann 8 .exclusive) none
    let full : State :=
      { ready with slots := Vector.replicate 128 { generation := 0#8, body := one } }
    let pool : State := { held with waits := Vector.replicate 48 (.ended (bobWait 7 .shared) .timeout) }
    let two := (held.setWait 0 (.queued { bobWait 8 .shared with client := ann } .indefinite 6)).setWait 1
      (.queued { bobWait 11 .shared with client := ann } .indefinite 8)
    (spent.record 7).fenceSpent = true ∧ 16 ≤ full.slotCount ann
      ∧ (full.slotCount bob < 16 ∧ ∀ i : SlotNo, (full.slot i).body ≠ .free)
      ∧ (held.grantable 7 .shared = false ∧ (held.slot 0).body = .free ∧ entry8.waitAllowed = false)
      ∧ 2 ≤ (two.waitsOf ann).length
      ∧ ((pool.waitsOf ann).length < 2 ∧ ∀ j : WaitNo, pool.wait j ≠ .free) := by decide +kernel
theorem test_hyps_CancelWaitAndRelease :
    let f := [0x02#8, 1#8, 0x33#8, 0#8, 7#8]
    let s := asks waited (.client .b) f
    (s.clientAsks Kind.cancelWait bob f ∧ s.waitOf? bob 7 = some 5 ∧ Frame.resource f = 7
        ∧ s.wait 5 = .queued (bobWait 7 .shared) (.ticks 2) 6)
      ∧ (asks held (.client .b) f).waitOf? bob 7 = none
      ∧ ((annAsks shared (frameHandle 0x03#8 [])).clientAsks Kind.release ann (frameHandle 0x03#8 [])
        ∧ (annAsks shared (frameHandle 0x03#8 [])).handleFor ann (frameHandle 0x03#8 []) 3
          (lease ann 7 .shared)) := by decide +kernel
theorem test_hyps_HandlesJudged :
    let far := frameOf 0x03#8 [128#8, 4#8]
    let old := frameOf 0x03#8 [3#8, 5#8]
    let f := frameHandle 0x03#8 []
    let up := frameOf 0x05#8 [127#8, 0#8, 0#8, 0#8]
    (rowKind .release = some Kind.release ∧ (annAsks shared far).clientAsks Kind.release ann far
        ∧ 128 ≤ (byteAt far 4).toNat)
      ∧ ((annAsks shared old).clientAsks Kind.release ann old ∧ byteAt old 4 = byteOf (3 : SlotNo).val
        ∧ ((annAsks shared old).slot 3).generation ≠ byteAt old 5)
      ∧ ((asks shared (.client .b) f).clientAsks Kind.release { port := .b, tag := 0 } f
        ∧ shared.part = .ready ∧ (asks shared (.client .b) f).handleFor ann f 3 (lease ann 7 .shared)
        ∧ ann ≠ { port := .b, tag := 0 })
      ∧ ((annAsks { ready with part := .spent } up).clientAsks Kind.upgrade ann up
        ∧ (byteAt up 4).toNat < 128) := by decide +kernel

/-- RENEW, UPGRADE, CANCEL_UPGRADE, DOWNGRADE. -/
theorem test_hyps_RenewReplacesTerm :
    let f := frameHandle 0x04#8 [0#8, 0#8]
    let s := annAsks shared f
    s.clientAsks Kind.renew ann f ∧ s.handleFor ann f 3 (lease ann 7 .shared)
      ∧ (s.slot 3).body = .active (lease ann 7 .shared) none ∧ s.entry 7 = .defined entry7
      ∧ (s.record 7).activationPending = false
      ∧ ¬(0 < entry7.renewLimit ∧ (lease ann 7 .shared).renewals = entry7.renewLimit)
      ∧ ¬(entry7.contention = .yields ∧ s.contended 3 7 = true)
      ∧ 10 = (if f.word 6 = 0 then entry7.defaultTerm else min (f.word 6) entry7.maxTerm) := by decide +kernel
theorem test_hyps_RenewAndUpgradeRefused :
    let f := frameHandle 0x04#8 [0#8, 0#8]
    let u := frameHandle 0x05#8 [0#8, 0#8]
    let l := lease ann 7 .shared
    ((annAsks revoked f).clientAsks Kind.renew ann f ∧ (annAsks revoked f).handleFor ann f 3 l
        ∧ (revoked.slot 3).body.isRevoking = true ∧ revoked.entry 7 = .defined entry7)
      ∧ ((pendingAct shared .undefined).record 7).activationPending = true
      ∧ ((annAsks (withSlot shared 3 (.active { l with renewals := 1 } none)) f).handleFor ann f 3
          { l with renewals := 1 } ∧ 0 < entry7.renewLimit ∧ 1 = entry7.renewLimit)
      ∧ (let y := (withWait shared 7 .exclusive .indefinite).setEntry 7 (.defined yielding)
        y.entry 7 = .defined yielding ∧ yielding.contention = .yields ∧ (y.record 7).queue ≠ [])
      ∧ (held.part = .ready ∧ (annAsks held u).clientAsks Kind.upgrade ann u
        ∧ (annAsks held u).handleFor ann u 3 (lease ann 7 .exclusive))
      ∧ (upgrading.record 7).upgradePending ≠ none
      ∧ ((annAsks two u).handleFor ann u 3 l ∧ (two.record 7).holders ≠ [3] ∧ Frame.word u 6 = 0) := by
  decide +kernel
theorem test_hyps_UpgradeAtOnceOrPending :
    let f := frameHandle 0x05#8 [0xFF#8, 0xFF#8]
    let l := lease ann 7 .shared
    ((annAsks shared f).clientAsks Kind.upgrade ann f ∧ shared.part = .ready
        ∧ (annAsks shared f).handleFor ann f 3 l ∧ (shared.slot 3).body = .active l none
        ∧ shared.entry 7 = .defined entry7 ∧ (shared.record 7).activationPending = false
        ∧ (shared.record 7).fenceSpent = false ∧ (shared.record 7).upgradePending = none
        ∧ (shared.record 7).holders = [3])
      ∧ ((annAsks two f).clientAsks Kind.upgrade ann f ∧ (annAsks two f).handleFor ann f 3 l
        ∧ (two.record 7).upgradePending = none ∧ (two.record 7).holders ≠ [3] ∧ f.word 6 ≠ 0
        ∧ entry7.waitAllowed = true) := by decide +kernel
theorem test_hyps_ExhaustionEndsWaits :
    let s := waited.setRecord 7 { waited.record 7 with lastSeq := 65535 }
    ((waited.record 7).lastSeq ≠ 65535 ∧ (s.record 7).lastSeq = 65535 ∧ 5 ∈ (s.record 7).queue)
      ∧ s.wait 5 = .queued (bobWait 7 .shared) (.ticks 2) 6 := by decide +kernel
theorem test_hyps_ExhaustionEndsWaits_laws :
    (waited.setRecord 7 { waited.record 7 with lastSeq := 65535 }).lawful := lawful_of_check (by decide +kernel)
theorem test_hyps_CancelUpgradeAndDowngrade :
    let f := frameHandle 0x06#8 []
    let g := frameHandle 0x07#8 []
    let l := lease ann 7 .shared
    ((annAsks upgrading f).clientAsks Kind.cancelUpgrade ann f ∧ (annAsks upgrading f).handleFor ann f 3 l
        ∧ (upgrading.record 7).upgradePending = some 3
        ∧ (upgrading.slot 3).body = .active l (some (.ticks 0)) ∧ upgrading.entry 7 = .defined entry7)
      ∧ (shared.record 7).upgradePending ≠ some 3
      ∧ ((annAsks held g).clientAsks Kind.downgrade ann g
        ∧ (annAsks held g).handleFor ann g 3 (lease ann 7 .exclusive)
        ∧ (held.slot 3).body = .active (lease ann 7 .exclusive) none ∧ entry7.kind = .shareable)
      ∧ ((annAsks revoked g).handleFor ann g 3 l ∧ (revoked.slot 3).body.isRevoking = true)
      ∧ ((annAsks shared g).handleFor ann g 3 l ∧ l.mode = .shared)
      ∧ entry8.kind = .exclusiveOnly := by decide +kernel

/-- Reads. -/
theorem test_hyps_VerifyJudgesFence :
    let f (e q : Nat) : Frame := frameOf 0x08#8 ([7#8] ++ be16 e ++ be16 q)
    (annAsks shared (f 0 1)).clientAsks Kind.verify ann (f 0 1)
      ∧ ((annAsks { shared with part := .spent } (f 5 1)).clientAsks Kind.verify ann (f 5 1)
        ∧ (f 5 1).word 5 ≤ shared.epoch)
      ∧ (annAsks { shared with part := .spent } (f 6 1)).clientAsks Kind.verify ann (f 6 1)
      ∧ ((annAsks shared (f 5 1)).clientAsks Kind.verify ann (f 5 1) ∧ shared.part = .ready
        ∧ (f 5 1).word 5 = shared.epoch ∧ (f 5 1).word 7 ≤ (shared.record 7).lastSeq
        ∧ (shared.record 7).holders = [] ++ 3 :: [] ∧ (shared.slot 3).body.live? = some (lease ann 7 .shared)
        ∧ (lease ann 7 .shared).fence = ⟨5, 1⟩)
      ∧ ((shared.record 7).lastSeq < (f 5 2).word 7 ∧ (f 4 1).word 5 < shared.epoch
        ∧ shared.epoch < (f 6 1).word 5) := by decide +kernel
theorem test_hyps_ReadsOnlyAnswer :
    (annAsks ready (frameOf 0x09#8 [7#8])).clientAsks Kind.queryResource ann (frameOf 0x09#8 [7#8])
      ∧ ((annAsks shared (frameHandle 0x0A#8 [])).clientAsks Kind.queryLease ann (frameHandle 0x0A#8 [])
        ∧ (annAsks shared (frameHandle 0x0A#8 [])).handleFor ann (frameHandle 0x0A#8 []) 3 (lease ann 7 .shared))
      ∧ (annAsks ready (frameOf 0x0B#8 [])).clientAsks Kind.listMine ann (frameOf 0x0B#8 [])
      ∧ (supSends ready (frameOf 0x20#8 [])).supAsks Kind.status (frameOf 0x20#8 [])
      ∧ ((supSends ready (frameOf 0x21#8 [127#8])).supAsks Kind.readLease (frameOf 0x21#8 [127#8])
        ∧ byteAt (frameOf 0x21#8 [127#8]) 4 = byteOf (127 : SlotNo).val) := by decide +kernel
theorem test_hyps_ReadsOnlyAnswer_tables :
    (supSends ready (frameOf 0x22#8 [255#8])).supAsks Kind.readResource (frameOf 0x22#8 [255#8])
      ∧ ((supSends ready (frameOf 0x23#8 [7#8, 48#8])).supAsks Kind.readQueue (frameOf 0x23#8 [7#8, 48#8])
        ∧ byteAt (frameOf 0x23#8 [7#8, 48#8]) 5 = byteOf 48)
      ∧ ((supSends ready (frameOf 0x24#8 [47#8])).supAsks Kind.readWait (frameOf 0x24#8 [47#8])
        ∧ byteAt (frameOf 0x24#8 [47#8]) 4 = byteOf (47 : WaitNo).val)
      ∧ ((supSends ready (frameOf 0x2F#8 [7#8])).supAsks Kind.storeRead (frameOf 0x2F#8 [7#8])
        ∧ ready.pageBusy 7 = false ∧ (running ready .eraseDirectory).pageBusy 7 = true) := by decide +kernel
theorem test_hyps_ReadsOnlyAnswer_malformed :
    ((supSends ready (frameOf 0x21#8 [128#8])).supAsks Kind.readLease (frameOf 0x21#8 [128#8])
        ∧ 128 ≤ (byteAt (frameOf 0x21#8 [128#8]) 4).toNat)
      ∧ ((supSends ready (frameOf 0x23#8 [7#8, 0#8])).supAsks Kind.readQueue (frameOf 0x23#8 [7#8, 0#8])
        ∧ (byteAt (frameOf 0x23#8 [7#8, 0#8]) 5).toNat = 0 ∧ 48 < (byteAt (frameOf 0x23#8 [7#8, 49#8]) 5).toNat)
      ∧ ((supSends ready (frameOf 0x24#8 [48#8])).supAsks Kind.readWait (frameOf 0x24#8 [48#8])
        ∧ 48 ≤ (byteAt (frameOf 0x24#8 [48#8]) 4).toNat) := by decide +kernel

/-- Ports, purges, revocation, time and activation. -/
def orphaned : State := busy.setSide .a { busy.side .a with policy := .orphan }

theorem test_hyps_DetachAndPurgeLeaveNothing :
    (annAsks busy (frameOf 0x0C#8 [])).clientAsks Kind.detach ann (frameOf 0x0C#8 [])
      ∧ ((supSends busy (frameOf 0x27#8 [4#8, 0#8])).supAsks Kind.purgeClient (frameOf 0x27#8 [4#8, 0#8])
        ∧ 4 ≤ (byteAt (frameOf 0x27#8 [4#8, 0#8]) 4).toNat ∧ 8 ≤ (byteAt (frameOf 0x27#8 [3#8, 8#8]) 5).toNat)
      ∧ ((supSends busy (frameOf 0x27#8 [0#8, 0#8])).supAsks Kind.purgeClient (frameOf 0x27#8 [0#8, 0#8])
        ∧ byteAt (frameOf 0x27#8 [0#8, 0#8]) 4 = byteOf ann.port.code
        ∧ byteAt (frameOf 0x27#8 [0#8, 0#8]) 5 = byteOf ann.tag.val)
      ∧ (busy.slot 3).body.live?.map Lease.client = some ann := by decide +kernel
theorem test_hyps_DetachAndPurgeLeaveNothing_laws :
    (leaseLaw (annAsks busy (frameOf 0x0C#8 [])) ∧ owedLaw (annAsks busy (frameOf 0x0C#8 [])))
      ∧ leaseLaw (supSends busy (frameOf 0x27#8 [0#8, 0#8])) ∧ owedLaw (supSends busy (frameOf 0x27#8 [0#8, 0#8])) :=
  have h := busy_lawful
  ⟨⟨h.1, h.2.2.2.1⟩, h.1, h.2.2.2.1⟩
theorem test_hyps_ResetPortClearsPort :
    (annAsks busy (frameOf 0x0D#8 [])).clientAsks Kind.resetPort ann (frameOf 0x0D#8 [])
      ∧ (busy.side .a).policy = .release ∧ (orphaned.side .a).policy = .orphan
      ∧ (orphaned.slot 3).body.live?.map (fun l => l.client.port) = some .a
      ∧ (orphaned.slot 9).body.live? = none := by decide +kernel
theorem test_hyps_ResetPortClearsPort_laws :
    (annAsks orphaned (frameOf 0x0D#8 [])).clientAsks Kind.resetPort ann (frameOf 0x0D#8 [])
      ∧ (annAsks orphaned (frameOf 0x0D#8 [])).lawful ∧ (annAsks busy (frameOf 0x0D#8 [])).lawful :=
  ⟨by decide +kernel, lawful_of_check (by decide +kernel), busy_lawful⟩
theorem test_hyps_RevokeByGrace :
    let f := frameOf 0x25#8 [3#8, 4#8, 0#8, 0#8]
    let d := frameOf 0x25#8 [3#8, 4#8, 1#8, 0#8]
    ((supSends shared f).supAsks Kind.revoke f ∧ byteAt f 4 = byteOf (3 : SlotNo).val
        ∧ graceOf? (byteAt f 6) (byteAt f 7) = some (some 0) ∧ (shared.slot 3).generation = byteAt f 5
        ∧ (shared.slot 3).body = .active (lease ann 7 .shared) none)
      ∧ ((supSends upgrading d).supAsks Kind.revoke d ∧ graceOf? (byteAt d 6) (byteAt d 7) = some none
        ∧ 3 = (none : Option Nat).getD (upgrading.entry 7).fieldsD.grace
        ∧ (upgrading.record 7).upgradePending = some 3)
      ∧ (revoked.slot 3).body.isRevoking = true ∧ (ready.slot 3).body.live? = none := by decide +kernel
/-- REVOKE_NOTICE can be queued at once; is owed; and merges into an owed EXPIRY_WARNING. -/
theorem test_hyps_RevokeByGrace_told :
    let f := frameOf 0x25#8 [3#8, 4#8, 0#8, 9#8]
    let full := shared.setPort (.client .a) (crammed.port (.client .a))
    let asked (s : State) : Prop := (supSends s f).supAsks Kind.revoke f ∧ (s.slot 3).generation = byteAt f 5
    (asked shared ∧ shared.canTake .a = true ∧ graceOf? (byteAt f 6) (byteAt f 7) = some (some 9))
      ∧ (asked full ∧ full.canTake .a = false ∧ (full.slot 3).body = .active (lease ann 7 .shared) none)
      ∧ (asked crammed ∧ crammed.canTake .a = false
        ∧ (crammed.slot 3).body = .active { lease ann 7 .exclusive with owed := some .expiryWarning } none) := by
  decide +kernel
theorem test_hyps_RevokeByGrace_malformed :
    let f (i sel g : Byte) : Frame := frameOf 0x25#8 [i, 4#8, sel, g]
    (supSends shared (f 128#8 0#8 0#8)).supAsks Kind.revoke (f 128#8 0#8 0#8)
      ∧ 128 ≤ (byteAt (f 128#8 0#8 0#8) 4).toNat ∧ 1 < (byteAt (f 3#8 2#8 0#8) 6).toNat
      ∧ (byteAt (f 3#8 1#8 1#8) 6 = 0x01#8 ∧ byteAt (f 3#8 1#8 1#8) 7 ≠ 0x00#8) := by decide +kernel
theorem test_hyps_RevokeResourceReachesAll :
    let f := frameOf 0x26#8 [7#8, 0#8, 0#8]
    (supSends two f).supAsks Kind.revokeResource f ∧ graceOf? (byteAt f 5) (byteAt f 6) = some (some 0)
      ∧ two.activeHolders 7 = [3, 4] ∧ revoked.activeHolders 7 = [] := by decide +kernel
theorem test_hyps_RevokeResourceReachesAll_malformed :
    let f (sel g : Byte) : Frame := frameOf 0x26#8 [7#8, sel, g]
    (supSends shared (f 2#8 0#8)).supAsks Kind.revokeResource (f 2#8 0#8) ∧ 1 < (byteAt (f 2#8 0#8) 5).toNat
      ∧ (byteAt (f 1#8 1#8) 5 = 0x01#8 ∧ byteAt (f 1#8 1#8) 6 ≠ 0x00#8) := by decide +kernel
theorem test_hyps_SetTimebaseRestartsDivider :
    let f (p r : Byte) : Frame := frameOf 0x28#8 [p, r]
    (supSends ready (frameOf 0x28#8 [4#8])).supMalformed Kind.setTimebase (frameOf 0x28#8 [4#8])
      ∧ ((supSends ready (f 0#8 0#8)).supAsks Kind.setTimebase (f 0#8 0#8) ∧ (byteAt (f 0#8 0#8) 4).toNat = 0)
      ∧ (64 < (byteAt (f 65#8 0#8) 4).toNat ∧ 1 < (byteAt (f 1#8 2#8) 5).toNat)
      ∧ ((supSends ready (f 64#8 1#8)).supAsks Kind.setTimebase (f 64#8 1#8)
        ∧ (byteAt (f 64#8 1#8) 4).toNat ≤ 64 ∧ (byteAt (f 64#8 1#8) 5).toNat ≤ 1) := by decide +kernel
theorem test_hyps_ActivateAtOnceOrPending :
    let f (v : Byte) : Frame := frameOf 0x29#8 [7#8, v]
    let full := shared.setActivations (List.replicate 4 { listed .undefined with resource := 1 })
    ((supSends ready (f 0#8)).supAsks Kind.activate (f 0#8) ∧ flagOf? (byteAt (f 0#8) 5) = some false
        ∧ flagOf? (byteAt (f 1#8) 5) = some true)
      ∧ (running ready .eraseDirectory).pageBusy 7 = true
      ∧ ((pendingAct shared .undefined).pageBusy 7 = false
        ∧ ((pendingAct shared .undefined).record 7).activationPending = true)
      ∧ ((ready.record 7).holders = [] ∧ (ready.record 7).queue = [] ∧ ready.pageBusy 7 = false
        ∧ (ready.record 7).activationPending = false)
      ∧ ((full.record 7).holders ≠ [] ∧ 4 ≤ full.activations.length)
      ∧ ((shared.record 7).holders ≠ [] ∧ shared.activations.length < 4)
      ∧ ((servable.record 7).holders = [] ∧ (servable.record 7).queue ≠ []) := by decide +kernel
theorem test_hyps_ActivateAtOnceOrPending_drains :
    let f : Frame := frameOf 0x29#8 [7#8, 2#8]
    let w := two.revokeAll (two.activeHolders 7) 0
    ((supSends two f).supAsks Kind.activate f ∧ 1 < (byteAt f 5).toNat)
      ∧ ((w.record 7).holders = [] ∧ ((two.revokeAll (two.activeHolders 7) 3).record 7).holders ≠ []) := by
  decide +kernel
theorem test_hyps_ActivateAtOnceOrPending_law : leaseLaw two ∧ leaseLaw revoked :=
  ⟨leaseLaw_of_check (by decide +kernel), leaseLaw_of_check (by decide +kernel)⟩
theorem test_hyps_CancelActivationRemovesEntry :
    let f := frameOf 0x2A#8 [7#8]
    (supSends (pendingAct shared .undefined) f).supAsks Kind.cancelActivation f
      ∧ ((pendingAct shared .undefined).activations.any fun a => a.pendingFor 7) = true
      ∧ (shared.activations.any fun a => a.pendingFor 7) = false
      ∧ (supSends shared (f ++ [0#8])).supMalformed Kind.cancelActivation (f ++ [0#8]) := by decide +kernel

/-- The store. -/
theorem test_hyps_StageTakesCommand :
    let page (op p : Byte) : Frame := frameOf 0x2B#8 [op, p]
    let prog := frameOf 0x2B#8 ([1#8, 7#8] ++ imageBytes)
    let sett := frameOf 0x2B#8 [6#8, 64#8, 0#8, 1#8, 0#8, 1#8]
    let init := frameOf 0x2B#8 [7#8, 0xFF#8, 0xFE#8]
    ((supSends ready (page 2#8 15#8)).supAsks (Kind.storeStage 6) (page 2#8 15#8)
        ∧ byteAt (page 2#8 15#8) 4 = byteOf 2 ∧ byteAt (page 2#8 15#8) 5 = byteOf (15 : PageNo).val
        ∧ ready.store.stage = .empty ∧ (staged ready (.held .scanCrc)).store.stage ≠ .empty)
      ∧ ((supSends ready (page 8#8 0#8)).supAsks (Kind.storeStage 6) (page 8#8 0#8)
        ∧ 7 < (byteAt (page 8#8 0#8) 4).toNat)
      ∧ ((supSends ready (page 3#8 0#8)).supMalformed (Kind.storeStage 5) (page 3#8 0#8)
        ∧ 4 < (page 3#8 0#8).length ∧ byteAt (page 3#8 0#8) 4 = byteOf 3)
      ∧ ((supSends ready prog).supAsks (Kind.storeStage 28) prog
        ∧ (fieldsOf? ((prog.drop 6).take 22)).isSome = true)
      ∧ byteAt (page 4#8 0xFF#8) 5 = 0xFF#8
      ∧ (supSends ready (frameOf 0x2B#8 [5#8])).supAsks (Kind.storeStage 5) (frameOf 0x2B#8 [5#8])
      ∧ ((supSends ready sett).supAsks (Kind.storeStage 10) sett ∧ ready.part = .ready ∧ ready.epoch ≠ 65535
        ∧ (settingsOf? (byteAt sett 5) (byteAt sett 6) (byteAt sett 7) (byteAt sett 8) (byteAt sett 9)).isSome
          = true)
      ∧ ((supSends { ready with part := .spent } init).supAsks (Kind.storeStage 7) init
        ∧ init.word 5 ≠ 65535) := by decide +kernel
theorem test_hyps_StageTakesCommand_refusals :
    let page (op p : Byte) : Frame := frameOf 0x2B#8 [op, p]
    let prog := frameOf 0x2B#8 ([1#8, 7#8] ++ List.replicate 22 0#8)
    let sett := frameOf 0x2B#8 [6#8, 65#8, 0#8, 1#8, 0#8, 1#8]
    let init := frameOf 0x2B#8 [7#8, 0xFF#8, 0xFF#8]
    ((supSends ready prog).supAsks (Kind.storeStage 28) prog ∧ fieldsOf? ((prog.drop 6).take 22) = none)
      ∧ (16 ≤ (byteAt (page 2#8 16#8) 5).toNat ∧ byteAt (page 4#8 16#8) 5 ≠ 0xFF#8)
      ∧ ((supSends { ready with epoch := 65535 } sett).supAsks (Kind.storeStage 10) sett
        ∧ settingsOf? (byteAt sett 5) (byteAt sett 6) (byteAt sett 7) (byteAt sett 8) (byteAt sett 9) = none)
      ∧ ((supSends ready init).supAsks (Kind.storeStage 7) init ∧ ready.part = .ready
        ∧ init.word 5 = 65535) := by decide +kernel
theorem test_hyps_LaunchAndDiscard :
    (supSends ready (frameOf 0x2C#8 [])).supAsks Kind.storeLaunch (frameOf 0x2C#8 [])
      ∧ (supSends ready (frameOf 0x2C#8 [0#8])).supMalformed Kind.storeLaunch (frameOf 0x2C#8 [0#8])
      ∧ (supSends ready (frameOf 0x2D#8 [])).supAsks Kind.storeDiscard (frameOf 0x2D#8 [])
      ∧ (supSends ready (frameOf 0x2D#8 [0#8])).supMalformed Kind.storeDiscard (frameOf 0x2D#8 [0#8])
      ∧ (ready.setStore { ready.store with fault := some .notBlank }).store.fault ≠ none
      ∧ ((staged ready (.held .scanCrc)).store.running = none ∧ ready.store.held = [])
      ∧ (running (staged ready (.held .scanCrc)) .scanCrc).store.running ≠ none
      ∧ (staged ready (.launched .scanCrc)).store.stage = .launched .scanCrc := by decide +kernel
theorem test_hyps_ClearChangesFaultAlone :
    (supSends ready (frameOf 0x2E#8 [])).supAsks Kind.storeClear (frameOf 0x2E#8 [])
      ∧ (supSends ready (frameOf 0x2E#8 [0#8])).supMalformed Kind.storeClear (frameOf 0x2E#8 [0#8]) := by
  decide +kernel
theorem test_hyps_OperationsChangeTheirBytes :
    let dirty : State := { ready with array := [(170, 1#8)] }
    (ready.serving = true ∧ Memory.wf dirty.array ∧ ready.store.fault = none ∧ ready.store.stage = .empty)
      ∧ ((running ready (.programEntry 7 imageBytes)).store.running = some (.programEntry 7 imageBytes)
        ∧ imageBytes.length = 22 ∧ blank (imageOf ready.array 7) = true
        ∧ blank (imageOf dirty.array 7) = false)
      ∧ (running ready (.erasePage 15)).store.running = some (.erasePage 15)
      ∧ (running ready .eraseDirectory).store.running = some .eraseDirectory := by decide +kernel
theorem test_hyps_ChecksAndSettingsComplete :
    let x : Settings := { Settings.defaults with prescale := 64 }
    let m := headerCells .h1 64 []
    let s : State := { ready with active := some .h1, array := m }
    let plan := (running s (.writeSettings x)).planOf (.writeSettings x)
    (s.serving = true ∧ Memory.wf m ∧ (running s (.writeSettings x)).store.running = some (.writeSettings x)
        ∧ s.part = .ready ∧ validPage m .h1 = true ∧ s.epoch < 65535 ∧ 1 ≤ x.prescale ∧ x.prescale ≤ 64)
      ∧ (runPlan plan [some [0#8]] m).failed = none ∧ (runPlan plan [none, some [0#8]] m).failed = some 2
      ∧ (runPlan plan [none, none, none, none, some [0#8]] m).failed = some 3
      ∧ (headerSettings? (headerOf s.array .h1)).isSome = true
      ∧ ((running { s with part := .spent } (.initHeader 65534)).runInitHeader 65534 [none, some [0xFF#8]]).fault
        = some .headerFailed := by decide +kernel
theorem test_hyps_ChecksAndSettingsComplete_checks :
    let dirty : State := { ready with array := [(170, 1#8)] }
    ((running ready (.blankCheck none)).store.running = some (.blankCheck none)
        ∧ (∀ n ∈ checkedEntries none, blank (imageOf ready.array n) = true))
      ∧ (7 ∈ checkedEntries (some 0) ∧ blank (imageOf dirty.array 7) = false
        ∧ ∀ k ∈ checkedEntries (some 0), k < 7 → blank (imageOf dirty.array k) = true)
      ∧ ((∀ n : ResNo, classify (imageOf ready.array n) ≠ .damaged)
        ∧ classify (imageOf dirty.array 7) = .damaged
        ∧ ∀ k < (7 : ResNo), classify (imageOf dirty.array k) ≠ .damaged) := by decide +kernel
theorem test_hyps_CompletionStopsOrGoesOn :
    let s := staged ready (.launched .scanCrc)
    let h := s.setStore { s.store with held := [storeDone .scanCrc none []] }
    let five := s.setPort .sup
      { PortUnit.initial with queue := List.replicate 5 (storeDone .scanCrc none []) }
    (s.serving = true ∧ s.store.fault = none ∧ s.store.held = [] ∧ s.store.running = none
        ∧ s.heldNotices = 0 ∧ s.supRoom = true ∧ s.store.stage = .launched .scanCrc)
      ∧ (h.heldNotices ≠ 0 ∧ h.store.held ≠ [])
      ∧ (five.supRoom = true ∧ ¬((five.port .sup).notices + 1 < 6 ∧ (five.port .sup).taken + 1 < 8)) := by
  decide +kernel
theorem test_hyps_CompletionStopsOrGoesOn_rows :
    let dirty : State := { ready with array := [(6143, 1#8)] }
    let e := (running dirty .eraseDirectory).runErase .eraseDirectory allResources
      (List.replicate 15 none ++ [some []])
    let p := (running dirty (.erasePage 15)).runErase (.erasePage 15) (entriesOn 15)
      [some (List.replicate 384 0#8)]
    (running ready (.programEntry 255 imageBytes)).store.running = some (.programEntry 255 imageBytes)
      ∧ e.fault = none ∧ p.fault = some .eraseFailed
      ∧ (blank (imageOf p.array 255) = false
        ∧ ∀ k : ResNo, k.val / 16 = 15 → k < 255 → blank (imageOf p.array k) = true) := by decide +kernel

/-- Time. -/
theorem test_hyps_TickCountsPeriods :
    (ready.serving = true ∧ ready.run = .run) ∧ { ready with run := .frozen }.run = .frozen
      ∧ State.reset.part = .starting := by decide +kernel
theorem test_hyps_TableTicksSubtractThenEnd :
    let s : State := { shared with leaseTicks := 1, waitTicks := 1, upgradeTicks := 1 }
    let last : State := { withSlot s 3 (.active { lease ann 7 .shared with remaining := 1 } none) with leaseTicks := 1 }
    let graced : State := { withSlot s 3 (.revoking (lease ann 7 .shared) 1) with leaseTicks := 1 }
    let due : State := { withSlot s 3 (.active { lease ann 7 .shared with remaining := 3 } none) with leaseTicks := 1 }
    (s.serving = true ∧ s.run = .run ∧ 0 < s.leaseTicks ∧ 0 < s.waitTicks ∧ 0 < s.upgradeTicks)
      ∧ ((last.tickSlots.slot 3).body.live?.map Lease.remaining = some 0)
      ∧ ((graced.tickSlots.slot 3).body.grace? = some 0)
      ∧ ((due.tickSlots.slot 3).body.live?.map Lease.remaining = some 2 ∧ entry7.warnLead = 2)
      ∧ (((s.tickSlots.slot 3).body.live?.map Lease.remaining = some 9) ∧ shared.leaseTicks = 0)
      ∧ { s with run := .frozen }.run = .frozen := by decide +kernel
theorem test_hyps_TableTicksSubtractThenEnd_waits :
    let s : State := { waited.setWait 5 (.queued (bobWait 7 .shared) (.ticks 1) 6) with waitTicks := 1 }
    let u : State := { upgrading.setBody 3 (.active (lease ann 7 .shared) (some (.ticks 1))) with upgradeTicks := 1 }
    (s.serving = true ∧ s.run = .run ∧ 0 < s.waitTicks ∧ ([5] : List WaitNo).Nodup
        ∧ s.tickWaits.wait 5 = .queued (bobWait 7 .shared) (.ticks 0) 6)
      ∧ (u.serving = true ∧ u.run = .run ∧ 0 < u.upgradeTicks ∧ ([7] : List ResNo).Nodup
        ∧ (u.record 7).upgradePending = some 3
        ∧ (u.tickDeadlines.slot 3).body = .active (lease ann 7 .shared) (some (.ticks 0))
        ∧ 7 ∈ u.tickDeadlines.upgradeTimeouts [7]) := by decide +kernel
theorem test_hyps_TableTicksSubtractThenEnd_laws :
    State.lawful { waited.setWait 5 (.queued (bobWait 7 .shared) (.ticks 1) 6) with waitTicks := 1 }
      ∧ State.lawful
        { upgrading.setBody 3 (.active (lease ann 7 .shared) (some (.ticks 1))) with upgradeTicks := 1 } :=
  ⟨lawful_of_check (by decide +kernel), lawful_of_check (by decide +kernel)⟩
theorem test_hyps_EndsAtZero :
    let l : Lease := { lease ann 7 .shared with remaining := 0 }
    let s := withSlot shared 3 (.active l none)
    let owing := withSlot shared 3 (.active { l with owed := some .expiryWarning } none)
    (s.serving = true ∧ s.run = .run ∧ (s.slot 3).body = .active l none ∧ l.remaining = 0)
      ∧ ((withSlot shared 3 (.revoking l 1)).slot 3).body = .revoking l 1
      ∧ ((withSlot shared 3 (.revoking (lease ann 7 .shared) 0)).slot 3).body = .revoking (lease ann 7 .shared) 0
      ∧ ((s.slot 3).body.live? = some l ∧ l.owed = none ∧ s.canTake .a = true)
      ∧ (owing.slot 3).body.live? = some { l with owed := some .expiryWarning } := by decide +kernel
theorem test_hyps_EndsAtZero_waits :
    (servable.serving = true ∧ servable.run = .run
        ∧ servable.wait 5 = .queued (bobWait 7 .shared) (.ticks 0) 6 ∧ servable.canTake .b = true
        ∧ (servable.setSide .b { owed := [.wait 0], policy := .release }).canTake .b = false)
      ∧ ((upgrading.record 7).upgradePending = some 3 ∧ upgrading.canTake .a = true
        ∧ (upgrading.slot 3).body = .active (lease ann 7 .shared) (some (.ticks 0))) := by decide +kernel
theorem test_hyps_EndsAtZero_laws : leaseLaw upgrading ∧ upgradeLaw upgrading :=
  ⟨upgrading_lawful.1, upgrading_lawful.2.2.1⟩

/-- The grant rule and notices. -/
theorem test_hyps_GrantRuleInOrder_laws : servable.lawful ∧ upgradable.lawful ∧ (drained .undefined).lawful
    ∧ (pendingAct shared .undefined).lawful :=
  ⟨servable_lawful, upgradable_lawful, drained_lawful.1, lawful_of_check (by decide +kernel)⟩
theorem test_hyps_GrantRuleInOrder :
    (servable.serving = true ∧ (servable.record 7).activationPending = false
        ∧ (servable.record 7).upgradePending = none
        ∧ (servable.record 7).queue = 5 :: [] ∧ servable.wait 5 = .queued (bobWait 7 .shared) (.ticks 0) 6
        ∧ (servable.slot 6).body = .reserved { resource := 7, client := bob, mode := .shared, term := 0 }
        ∧ servable.entry 7 = .defined entry7 ∧ servable.grantable 7 .shared = true ∧ servable.canTake .b = true)
      ∧ ((upgradable.record 7).upgradePending = some 3 ∧ (upgradable.record 7).holders = [3]
        ∧ (upgradable.slot 3).body = .active (lease ann 7 .shared) (some (.ticks 4)))
      ∧ ((waited.record 7).queue.head? = some 5 ∧ (waited.wait 5).queued? = some (bobWait 7 .shared)
        ∧ waited.grantable 7 .shared = false ∧ (shared.record 7).queue = []) := by decide +kernel
theorem test_hyps_GrantRuleInOrder_activation :
    let s := drained .undefined
    (s.serving = true ∧ (s.record 7).activationPending = true ∧ (s.record 7).holders = []
        ∧ s.pendingEntry 7 = some (listed .undefined) ∧ 5 ∈ (s.record 7).queue ∧ s.heldNotices = 0
        ∧ s.supRoom = true)
      ∧ ((pendingAct shared .undefined).record 7).holders ≠ []
      ∧ (entry8.kind = .exclusiveOnly
        ∧ (drained (.defined entry8)).wait 5 = .queued (bobWait 7 .shared) .indefinite 6)
      ∧ (s.setPort .sup { PortUnit.initial with queue := List.replicate 8 message }).supRoom = false := by
  decide +kernel
/-- The head granted while two wait: the rule goes on with the second, and stops at one that asks EXCLUSIVE. -/
theorem test_grant_rule_goes_on :
    let x : Reservation := { resource := 7, client := ann, mode := .exclusive, term := 0 }
    let s := (ready.setSlot 8 { generation := 1#8, body := .reserved x }).setWait 1
      (.queued { bobWait 7 .exclusive with client := ann } .indefinite 8)
    let t := withWait s 7 .shared .indefinite
    let t := (t.setRecord 7 { t.record 7 with queue := [5, 1] }).grantRule 7
    ((t.record 7).holders, (t.record 7).queue) = ([6], [1]) := by decide +kernel
theorem test_hyps_WaitingNoticesEnter :
    let fullA := busy.setPort (.client .a) { PortUnit.initial with queue := List.replicate 16 message }
    let first (r : Ref) : State := busy.setSide .a { owed := [r, .slot 9], policy := .release }
    (busy.serving = true ∧ (busy.side .a).owed = .slot 9 :: [.wait 2, .slot 3]
        ∧ (busy.port (.client .a)).room (.client .a) = true
        ∧ (busy.slot 9).body.lease?.map Lease.owed = some (some .leaseEnded))
      ∧ (((first (.wait 2)).side .a).owed = .wait 2 :: [.slot 9] ∧ (busy.wait 2).code = 0x04#8)
      ∧ (((first (.slot 3)).side .a).owed = .slot 3 :: [.slot 9]
        ∧ (busy.slot 3).body.live?.map Lease.owed = some (some .expiryWarning))
      ∧ (fullA.port (.client .a)).room (.client .a) = false ∧ (ready.side .a).owed = []
      ∧ (shared.canTake .a = true ∧ busy.canTake .a = false)
      ∧ (Owed.rank .leaseEnded < Owed.rank .expiryWarning) := by decide +kernel
theorem test_hyps_WaitingNoticesEnter_held :
    let store := ready.setStore { ready.store with held := [storeDone .scanCrc none [], storeSkipped .scanCrc] }
    let fullS := store.setPort .sup { PortUnit.initial with queue := List.replicate 8 message }
    let applied := ready.setActivations [listed .damaged, { listed .undefined with state := .applied 1 }]
    (store.store.held = storeDone .scanCrc none [] :: [storeSkipped .scanCrc] ∧ store.supRoom = true)
      ∧ fullS.supRoom = false ∧ (ready.store.held = [] ∧ ready.activations = [])
      ∧ (applied.activations = [listed .damaged] ++ { listed .undefined with state := .applied 1 } :: []
        ∧ (listed .damaged).state = .pending) := by decide +kernel
/-- One delivery empties the owed list in its order and frees what was ENDED. -/
theorem test_owed_notices_leave_in_order :
    let t := after (exec (.owedNoticeDelivery .a) busy)
    ((t.port (.client .a)).queue.map Message.code, (t.side .a).owed, (t.slot 9).body.code, (t.wait 2).code)
      = ([0xC7#8, 0xC6#8, 0xC7#8, 0xC4#8], [], 0x00#8, 0x00#8) := by decide +kernel

/-- Images and frames. -/
theorem test_hyps_ImagesClassified :
    let good := sealImage imageBytes
    let bad := sealImage (List.replicate 22 0#8)
    blank (List.replicate 24 0xFF#8) = true
      ∧ (blank good = false ∧ good.drop 22 = crc16Bytes (good.take 22)
        ∧ (fieldsOf? (good.take 22)).isSome = true)
      ∧ (blank bad = false ∧ bad.drop 22 = crc16Bytes (bad.take 22) ∧ fieldsOf? (bad.take 22) = none)
      ∧ (List.replicate 24 0#8).drop 22 ≠ crc16Bytes ((List.replicate 24 0#8).take 22)
      ∧ (imageBytes.length = 22 ∧ (fieldsOf? imageBytes).isSome = true) := by decide +kernel
theorem test_hyps_CommandsLeaveTheRest :
    (∃ t, exec .dispatch ready = .next t) ∧ Instr.acquire ∈ clientRows
      ∧ ∃ t, exec .acquire (annAsks ready (frameAcquire 7#8 1#8 0 0)) = .next t :=
  ⟨⟨_, rfl⟩, by decide, ⟨_, rfl⟩⟩

end Sys2Proof.Tests
end

section
/-! PROOFS. What the operations on slots and wait entries keep of the records: the bookings of RESERVED slots (R46),
the owed lists (R112), and whom each slot and wait entry counts for (R26). -/

namespace Sys2Proof.Machine

/-! ### What a slot and a wait entry stand for -/

/-- The slot's lease owes a notice on the port (R112). -/
def SlotBody.owesTo (b : SlotBody) (p : CPort) : Prop :=
  ∃ l : Lease, b.lease? = some l ∧ l.client.port = p ∧ l.owed ≠ none

/-- The wait entry is ENDED and owes its notice on the port (R52). -/
def WaitEntry.owesTo (x : WaitEntry) (p : CPort) : Prop :=
  ∃ (w : Wait) (c : WaitCause), x = .ended w c ∧ w.client.port = p

/-- An ENDED slot owes LEASE_ENDED (R33). -/
def SlotBody.settled (b : SlotBody) : Prop :=
  ∀ (l : Lease) (g : Option Nat) (c : EndCause), b = .ended l g c → l.owed = some .leaseEnded

/-- The client a slot counts for (R26). -/
def SlotBody.occupant? : SlotBody → Option Client
  | .reserved r => some r.client
  | .active l _ | .revoking l _ => some l.client
  | .free | .ended _ _ _ => none

/-- The client a wait entry counts for (R47). -/
def WaitEntry.waiter? (x : WaitEntry) : Option Client := x.queued?.map Wait.client

theorem Slot.countsFor_iff (v : Slot) (c : Client) : v.countsFor c = true ↔ v.body.occupant? = some c := by
  obtain ⟨g, b⟩ := v
  cases b <;> simp [Slot.countsFor, SlotBody.occupant?]

theorem State.owesOn_slot (s : State) (p : CPort) (i : SlotNo) :
    s.owesOn p (.slot i) ↔ (s.slot i).body.owesTo p := Iff.rfl

theorem State.owesOn_wait (s : State) (p : CPort) (j : WaitNo) :
    s.owesOn p (.wait j) ↔ (s.wait j).owesTo p := Iff.rfl

@[simp] theorem SlotBody.free_owesTo (p : CPort) : ¬ SlotBody.free.owesTo p := by
  simp [SlotBody.owesTo, SlotBody.lease?]

@[simp] theorem SlotBody.reserved_owesTo (r : Reservation) (p : CPort) : ¬ (SlotBody.reserved r).owesTo p := by
  simp [SlotBody.owesTo, SlotBody.lease?]

theorem SlotBody.owesTo_of_lease {b : SlotBody} {l : Lease} (h : b.lease? = some l) (p : CPort) :
    b.owesTo p ↔ l.client.port = p ∧ l.owed ≠ none := by
  simp [SlotBody.owesTo, h]

@[simp] theorem WaitEntry.free_owesTo (p : CPort) : ¬ WaitEntry.free.owesTo p := by simp [WaitEntry.owesTo]

@[simp] theorem WaitEntry.queued_owesTo (w : Wait) (r : Limit) (i : SlotNo) (p : CPort) :
    ¬ (WaitEntry.queued w r i).owesTo p := by simp [WaitEntry.owesTo]

@[simp] theorem WaitEntry.ended_owesTo (w : Wait) (c : WaitCause) (p : CPort) :
    (WaitEntry.ended w c).owesTo p ↔ p = w.client.port := by
  simp [WaitEntry.owesTo, eq_comm]

@[simp] theorem SlotBody.free_settled : SlotBody.free.settled := by simp [SlotBody.settled]

@[simp] theorem SlotBody.reserved_settled (r : Reservation) : (SlotBody.reserved r).settled := by
  simp [SlotBody.settled]

@[simp] theorem SlotBody.active_settled (l : Lease) (d : Option Limit) : (SlotBody.active l d).settled := by
  simp [SlotBody.settled]

@[simp] theorem SlotBody.revoking_settled (l : Lease) (g : Nat) : (SlotBody.revoking l g).settled := by
  simp [SlotBody.settled]

@[simp] theorem SlotBody.ended_settled (l : Lease) (g : Option Nat) (c : EndCause) :
    (SlotBody.ended l g c).settled ↔ l.owed = some .leaseEnded := by simp [SlotBody.settled]

/-- A live slot has its lease. -/
theorem SlotBody.lease_of_live {b : SlotBody} {l : Lease} (h : b.live? = some l) : b.lease? = some l := by
  cases b <;> simp_all [SlotBody.live?, SlotBody.lease?]

/-- A live slot counts for the client of its lease. -/
theorem SlotBody.occupant_of_live {b : SlotBody} {l : Lease} (h : b.live? = some l) :
    b.occupant? = some l.client := by
  cases b <;> simp_all [SlotBody.live?, SlotBody.occupant?]

/-- A slot with a lease is RESERVED for no wait. -/
theorem SlotBody.not_reservedFor_of_lease {b : SlotBody} {l : Lease} (h : b.lease? = some l) (w : Wait) :
    ¬ b.reservedFor w := by
  cases b <;> simp_all [SlotBody.lease?, SlotBody.reservedFor]

/-- A slot RESERVED for a wait counts for the wait's client. -/
theorem SlotBody.occupant_of_reservedFor {b : SlotBody} {w : Wait} (h : b.reservedFor w) :
    b.occupant? = some w.client := by
  cases b <;> simp_all [SlotBody.reservedFor, SlotBody.occupant?, Reservation.answers]

/-- A slot RESERVED for a wait owes nothing. -/
theorem SlotBody.not_owesTo_of_reservedFor {b : SlotBody} {w : Wait} (h : b.reservedFor w) (p : CPort) :
    ¬ b.owesTo p := by
  cases b <;> simp_all [SlotBody.reservedFor]

/-- A slot's new body stands for what its old one did: its reservation, what it owes, and its client. -/
structure SlotBody.Alike (a b : SlotBody) : Prop where
  reservedFor : ∀ w, a.reservedFor w → b.reservedFor w
  owesTo : ∀ p, b.owesTo p ↔ a.owesTo p
  settled : a.settled → b.settled
  occupant : ∀ c, b.occupant? = some c → a.occupant? = some c

/-- A wait entry's new value stands for what its old one did: its slot, what it owes, and its client. -/
structure WaitEntry.Alike (a b : WaitEntry) : Prop where
  queued : ∀ w r i, b = .queued w r i → ∃ r', a = .queued w r' i
  owesTo : ∀ p, b.owesTo p ↔ a.owesTo p

/-- A slot's new body owes nothing and counts for no other client than its old one. -/
structure SlotBody.Subsides (a b : SlotBody) : Prop where
  reservedFor : ∀ w, a.reservedFor w → b.reservedFor w
  silent : ∀ p, ¬ b.owesTo p
  settled : b.settled
  occupant : ∀ c, b.occupant? = some c → a.occupant? = some c

/-- A slot whose old body owed nothing has a new one that owes on the port. -/
structure SlotBody.ComesToOwe (q : CPort) (a b : SlotBody) : Prop where
  reservedFor : ∀ w, a.reservedFor w → b.reservedFor w
  silent : ∀ p, ¬ a.owesTo p
  owesTo : ∀ p, b.owesTo p ↔ p = q
  settled : a.settled → b.settled
  occupant : ∀ c, b.occupant? = some c → a.occupant? = some c

theorem SlotBody.Alike.refl {a : SlotBody} : a.Alike a := ⟨fun _ => id, fun _ => Iff.rfl, id, fun _ => id⟩

theorem WaitEntry.Alike.refl {a : WaitEntry} : a.Alike a := ⟨fun _ r _ h => ⟨r, h⟩, fun _ => Iff.rfl⟩

/-- A change of the lease alone that keeps its client and what it owes. -/
theorem SlotBody.alike_mapLease {f : Lease → Lease} (b : SlotBody) (hc : ∀ l, (f l).client = l.client)
    (ho : ∀ l, (f l).owed = l.owed) : b.Alike (b.mapLease f) := by
  refine ⟨?_, ?_, ?_, ?_⟩ <;>
    cases b <;> simp [SlotBody.mapLease, SlotBody.reservedFor, SlotBody.owesTo, SlotBody.lease?,
      SlotBody.occupant?, hc, ho]

theorem SlotBody.alike_dropDeadline (b : SlotBody) : b.Alike b.dropDeadline := by
  cases b with
  | active l d => exact ⟨fun _ => id, fun _ => Iff.rfl, by simp [SlotBody.dropDeadline], fun _ => id⟩
  | _ => exact .refl

theorem SlotBody.Alike.trans {a b c : SlotBody} (h : a.Alike b) (k : b.Alike c) : a.Alike c :=
  ⟨fun w x => k.reservedFor w (h.reservedFor w x), fun p => (k.owesTo p).trans (h.owesTo p),
    fun x => k.settled (h.settled x), fun d x => h.occupant d (k.occupant d x)⟩

/-- A live slot's new live body whose lease has the client of the old one and owes as much. -/
theorem SlotBody.alike_of_live {a b : SlotBody} {l x : Lease} (ha : a.live? = some l) (hb : b.live? = some x)
    (hc : x.client = l.client) (ho : x.owed = l.owed) : a.Alike b where
  reservedFor w h := absurd h (SlotBody.not_reservedFor_of_lease (SlotBody.lease_of_live ha) w)
  owesTo p := by
    rw [SlotBody.owesTo_of_lease (SlotBody.lease_of_live ha), SlotBody.owesTo_of_lease (SlotBody.lease_of_live hb),
      hc, ho]
  settled _ := by cases b <;> simp_all [SlotBody.live?]
  occupant c h := by rw [SlotBody.occupant_of_live ha, ← hc, ← SlotBody.occupant_of_live hb, h]

/-! ### The bookings (R46) -/

/-- Each QUEUED entry's slot is RESERVED for it, and no two entries name the same slot: the parts of R46 by which the
end of a wait frees or grants a slot that nothing else stands on. -/
def State.booked (s : State) : Prop :=
  (∀ (j : WaitNo) (w : Wait) (r : Limit) (i : SlotNo), s.wait j = .queued w r i → (s.slot i).body.reservedFor w)
    ∧ ∀ (j k : WaitNo) (i : SlotNo), (s.wait j).reserves = some i → (s.wait k).reserves = some i → j = k

theorem booked_of_leaseLaw {s : State} (h : leaseLaw s) : s.booked := by
  obtain ⟨_, hres, hone, _⟩ := h
  refine ⟨fun j w r i hj => ?_, fun j k i hj hk => hone j k (by simp [hj]) (hj.trans hk.symm)⟩
  have := hres j
  simpa [hj] using this

/-- The entries QUEUED after a change were so before, on the same slots, and the slots they name are RESERVED still. -/
theorem State.booked.mono {s t : State} (h : s.booked)
    (hw : ∀ j w r i, t.wait j = .queued w r i → ∃ r', s.wait j = .queued w r' i)
    (hs : ∀ j w r i, t.wait j = .queued w r i → (s.slot i).body.reservedFor w → (t.slot i).body.reservedFor w) :
    t.booked := by
  have named : ∀ j i, (t.wait j).reserves = some i → (s.wait j).reserves = some i := by
    intro j i hj
    cases e : t.wait j with
    | queued w r k =>
      obtain ⟨r', e'⟩ := hw j w r k e
      rw [e', ← hj, e]; rfl
    | _ => simp [e, WaitEntry.reserves] at hj
  refine ⟨fun j w r i e => ?_, fun j k i hj hk => h.2 j k i (named j i hj) (named k i hk)⟩
  obtain ⟨r', e'⟩ := hw j w r i e
  exact hs j w r i e (h.1 j w r' i e')

/-! ### The owed lists (R33, R52, R112) -/

/-- Nothing that owes, and no owed list, has changed. -/
theorem owedLaw.same {s t : State} (h : owedLaw s) (ho : ∀ p r, t.owesOn p r ↔ s.owesOn p r)
    (hd : ∀ p, (t.side p).owed = (s.side p).owed) (he : ∀ i, (t.slot i).body.settled) : owedLaw t := by
  refine ⟨fun p => ?_, fun i => he i⟩
  obtain ⟨hn, hm⟩ := h.1 p
  rw [hd p]
  exact ⟨hn, fun r => (hm r).trans (ho p r).symm⟩

/-- The record `x` leaves the owed list of port `q`, and owes nothing any more. -/
theorem owedLaw.leave {s t : State} {q : CPort} {x : Ref} (h : owedLaw s)
    (ho : ∀ p r, r ≠ x → (t.owesOn p r ↔ s.owesOn p r)) (hx : ∀ p, ¬ t.owesOn p x)
    (hq : ∀ p, s.owesOn p x → p = q)
    (hd : ∀ p, (t.side p).owed = if p = q then (s.side p).owed.erase x else (s.side p).owed)
    (he : ∀ i, (t.slot i).body.settled) : owedLaw t := by
  refine ⟨fun p => ?_, fun i => he i⟩
  obtain ⟨hn, hm⟩ := h.1 p
  have mem : ∀ r, r ∈ (t.side p).owed ↔ r ≠ x ∧ r ∈ (s.side p).owed := by
    intro r
    rw [hd p]
    by_cases hp : p = q
    · rw [if_pos hp, hn.mem_erase_iff]
    · have : x ∉ (s.side p).owed := fun k => hp (hq p ((hm x).1 k))
      rw [if_neg hp]
      exact ⟨fun k => ⟨fun e => this (e ▸ k), k⟩, And.right⟩
  refine ⟨?_, fun r => ?_⟩
  · rw [hd p]; split
    · exact hn.erase x
    · exact hn
  · rw [mem, hm]
    by_cases hr : r = x
    · simp [hr, hx p]
    · simp [hr, ho p r hr]

/-- The record `x`, which owed nothing, joins the owed list of port `q` and owes on it. -/
theorem owedLaw.join {s t : State} {q : CPort} {x : Ref} (h : owedLaw s)
    (ho : ∀ p r, r ≠ x → (t.owesOn p r ↔ s.owesOn p r)) (hx : ∀ p, ¬ s.owesOn p x)
    (hq : ∀ p, t.owesOn p x ↔ p = q)
    (hd : ∀ p, (t.side p).owed = if p = q then (s.side p).owed ++ [x] else (s.side p).owed)
    (he : ∀ i, (t.slot i).body.settled) : owedLaw t := by
  refine ⟨fun p => ?_, fun i => he i⟩
  obtain ⟨hn, hm⟩ := h.1 p
  have hxm : x ∉ (s.side p).owed := fun k => hx p ((hm x).1 k)
  have mem : ∀ r, r ∈ (t.side p).owed ↔ r ∈ (s.side p).owed ∨ (r = x ∧ p = q) := by
    intro r
    rw [hd p]
    by_cases hp : p = q <;> simp [hp]
  refine ⟨?_, fun r => ?_⟩
  · rw [hd p]; split
    · exact List.nodup_append.2 ⟨hn, by simp, by rintro a ha _ hb rfl; simp_all⟩
    · exact hn
  · rw [mem, hm]
    by_cases hr : r = x
    · subst hr; simp [hx p, hq p]
    · simp [hr, ho p r hr]

/-! ### What an operation keeps -/

/-- From `s` to `t` the bookings stay sound, the owed lists exact, and no slot and no wait entry comes to count for a
client it did not count for. -/
structure Kept (s t : State) : Prop where
  booked : s.booked → t.booked
  owed : s.booked → owedLaw s → owedLaw t
  slots : s.booked → ∀ i c, (t.slot i).body.occupant? = some c → (s.slot i).body.occupant? = some c
  waits : ∀ j c, (t.wait j).waiter? = some c → (s.wait j).waiter? = some c

theorem Kept.refl {s : State} : Kept s s := ⟨id, fun _ => id, fun _ _ _ => id, fun _ _ => id⟩

theorem Kept.trans {s t u : State} (h : Kept s t) (k : Kept t u) : Kept s u where
  booked b := k.booked (h.booked b)
  owed b o := k.owed (h.booked b) (h.owed b o)
  slots b i c x := h.slots b i c (k.slots (h.booked b) i c x)
  waits j c x := h.waits j c (k.waits j c x)

theorem WaitEntry.Alike.waiter {a b : WaitEntry} (h : a.Alike b) {c : Client} (hb : b.waiter? = some c) :
    a.waiter? = some c := by
  cases b with
  | queued w r i =>
    obtain ⟨r', rfl⟩ := h.queued w r i rfl
    exact hb
  | _ => simp [WaitEntry.waiter?, WaitEntry.queued?] at hb

/-- Every slot and wait entry stands for what it did, and no owed list has changed. -/
theorem Kept.of_alike {s t : State} (hs : ∀ i, (s.slot i).body.Alike (t.slot i).body)
    (hw : ∀ j, (s.wait j).Alike (t.wait j)) (hd : ∀ p, (t.side p).owed = (s.side p).owed) : Kept s t where
  booked b := b.mono (fun j => (hw j).queued) fun _ w _ i _ => (hs i).reservedFor w
  owed _ o := by
    refine o.same (fun p r => ?_) hd fun i => (hs i).settled (o.2 i)
    cases r with
    | slot i => exact (hs i).owesTo p
    | wait j => exact (hw j).owesTo p
  slots _ i := (hs i).occupant
  waits j _ h := (hw j).waiter h

/-- The tables and the owed lists are as they were. -/
theorem Kept.of_same {s t : State} (hs : t.slots = s.slots) (hw : t.waits = s.waits)
    (hd : ∀ p, (t.side p).owed = (s.side p).owed) : Kept s t :=
  .of_alike (fun i => by rw [State.slot, State.slot, hs]; exact .refl)
    (fun j => by rw [State.wait, State.wait, hw]; exact .refl) hd

variable {s : State}

/-! ### One slot or one wait entry changed -/

theorem State.owesOn_setSlot {i : SlotNo} {r : Ref} (h : r ≠ .slot i) (v : Slot) (p : CPort) :
    (s.setSlot i v).owesOn p r ↔ s.owesOn p r := by
  cases r with
  | slot k => simp [State.owesOn_slot, State.slot_setSlot, show k ≠ i from fun e => h (e ▸ rfl)]
  | wait j => exact Iff.rfl

theorem State.owesOn_setSlot_self (i : SlotNo) (v : Slot) (p : CPort) :
    (s.setSlot i v).owesOn p (.slot i) ↔ v.body.owesTo p := by
  simp [State.owesOn_slot, State.slot_setSlot]

theorem State.owesOn_setWait {j : WaitNo} {r : Ref} (h : r ≠ .wait j) (x : WaitEntry) (p : CPort) :
    (s.setWait j x).owesOn p r ↔ s.owesOn p r := by
  cases r with
  | slot k => exact Iff.rfl
  | wait k => simp [State.owesOn_wait, State.wait_setWait, show k ≠ j from fun e => h (e ▸ rfl)]

theorem State.owesOn_setWait_self (j : WaitNo) (x : WaitEntry) (p : CPort) :
    (s.setWait j x).owesOn p (.wait j) ↔ x.owesTo p := by
  simp [State.owesOn_wait, State.wait_setWait]

/-- An entry whose old and new value owe nothing changes nothing that is owed. -/
theorem State.owesOn_setWait_silent {j : WaitNo} {x : WaitEntry} (hs : ∀ p, ¬ (s.wait j).owesTo p)
    (hx : ∀ p, ¬ x.owesTo p) (p : CPort) (r : Ref) : (s.setWait j x).owesOn p r ↔ s.owesOn p r := by
  by_cases h : r = .wait j
  · subst h; exact iff_of_false (mt (State.owesOn_setWait_self j x p).1 (hx p)) (hs p)
  · exact State.owesOn_setWait h x p

/-- So it is with a slot. -/
theorem State.owesOn_setSlot_silent {i : SlotNo} {v : Slot} (hs : ∀ p, ¬ (s.slot i).body.owesTo p)
    (hv : ∀ p, ¬ v.body.owesTo p) (p : CPort) (r : Ref) : (s.setSlot i v).owesOn p r ↔ s.owesOn p r := by
  by_cases h : r = .slot i
  · subst h; exact iff_of_false (mt (State.owesOn_setSlot_self i v p).1 (hv p)) (hs p)
  · exact State.owesOn_setSlot h v p

theorem State.settled_setSlot {i : SlotNo} {v : Slot} (hs : ∀ k, (s.slot k).body.settled) (hv : v.body.settled)
    (k : SlotNo) : ((s.setSlot i v).slot k).body.settled := by
  rw [State.slot_setSlot]
  split
  · exact hv
  · exact hs k

theorem State.occupant_setSlot {i : SlotNo} {v : Slot}
    (h : ∀ c, v.body.occupant? = some c → (s.slot i).body.occupant? = some c) (k : SlotNo) (c : Client) :
    ((s.setSlot i v).slot k).body.occupant? = some c → (s.slot k).body.occupant? = some c := by
  rw [State.slot_setSlot]
  split
  · rename_i e; subst e; exact h c
  · exact id

/-- An entry that is not QUEUED any more counts for no client. -/
theorem State.waiter_setWait {j : WaitNo} {x : WaitEntry} (hx : x.queued? = none) (k : WaitNo) (c : Client) :
    ((s.setWait j x).wait k).waiter? = some c → (s.wait k).waiter? = some c := by
  rw [State.wait_setWait]
  split
  · simp [WaitEntry.waiter?, hx]
  · exact id

theorem State.owed_leaveOwed (p q : CPort) (r : Ref) :
    ((s.leaveOwed q r).side p).owed = if p = q then (s.side p).owed.erase r else (s.side p).owed := by
  rw [State.side_leaveOwed]
  split
  · rename_i e; rw [e]
  · rfl

theorem State.owed_joinOwed (p q : CPort) (r : Ref) :
    ((s.joinOwed q r).side p).owed = if p = q then (s.side p).owed ++ [r] else (s.side p).owed := by
  rw [State.side_joinOwed]
  split
  · rename_i e; rw [e]
  · rfl

theorem State.booked.setSlot {i : SlotNo} {v : Slot} (b : s.booked)
    (h : ∀ w, (s.slot i).body.reservedFor w → v.body.reservedFor w) : (s.setSlot i v).booked := by
  refine b.mono (fun j w r k e => ⟨r, e⟩) fun j w r k _ hk => ?_
  rw [State.slot_setSlot]
  split
  · rename_i e; subst e; exact h w hk
  · exact hk

theorem State.booked.setWait {j : WaitNo} {x : WaitEntry} (b : s.booked) (hx : x.queued? = none) :
    (s.setWait j x).booked := by
  refine b.mono (fun k w r i e => ⟨r, ?_⟩) fun _ _ _ _ _ => id
  rw [State.wait_setWait] at e
  split at e
  · simp [e, WaitEntry.queued?] at hx
  · exact e

theorem State.alike_setSlot {i : SlotNo} {v : Slot} (h : (s.slot i).body.Alike v.body) (k : SlotNo) :
    (s.slot k).body.Alike ((s.setSlot i v).slot k).body := by
  rw [State.slot_setSlot]
  split
  · rename_i e; subst e; exact h
  · exact .refl

/-- One slot takes a body that stands for what its old one did. -/
theorem Kept.setSlot {i : SlotNo} {v : Slot} (h : (s.slot i).body.Alike v.body) : Kept s (s.setSlot i v) :=
  .of_alike (State.alike_setSlot h) (fun _ => .refl) fun _ => rfl

/-- One slot leaves the owed list of a port and takes a body that owes nothing. -/
theorem Kept.clearSlot {i : SlotNo} {v : Slot} {q : CPort} (h : (s.slot i).body.Subsides v.body)
    (hq : owedLaw s → ∀ p, (s.slot i).body.owesTo p → p = q) : Kept s ((s.leaveOwed q (.slot i)).setSlot i v) where
  booked b := State.booked.setSlot (s := s.leaveOwed q (.slot i)) b h.reservedFor
  owed _ o := by
    refine o.leave (q := q) (x := .slot i) (fun p r hr => ?_) (fun p => ?_) (hq o)
      (fun p => State.owed_leaveOwed p q _) (State.settled_setSlot o.2 h.settled)
    · exact State.owesOn_setSlot (s := s.leaveOwed q (.slot i)) hr v p
    · rw [State.owesOn_setSlot_self]; exact h.silent p
  slots _ := State.occupant_setSlot (s := s.leaveOwed q (.slot i)) h.occupant
  waits _ _ := id

/-- One slot that owed nothing joins the owed list of a port and takes a body that owes on it. -/
theorem Kept.oweSlot {i : SlotNo} {v : Slot} {q : CPort} (h : (s.slot i).body.ComesToOwe q v.body) :
    Kept s ((s.setSlot i v).joinOwed q (.slot i)) where
  booked b := State.booked.setSlot (s := s) b h.reservedFor
  owed _ o := by
    refine o.join (q := q) (x := .slot i) (fun p r hr => State.owesOn_setSlot (s := s) hr v p) h.silent (fun p => ?_)
      (fun p => State.owed_joinOwed p q _) (State.settled_setSlot (s := s) o.2 (h.settled (o.2 i)))
    exact (State.owesOn_setSlot_self (s := s) i v p).trans (h.owesTo p)
  slots _ := State.occupant_setSlot (s := s) h.occupant
  waits _ _ := id

/-- A FREE wait entry becomes ENDED and joins the owed list of its client's port. -/
theorem Kept.oweWait {j : WaitNo} {w : Wait} {c : WaitCause} (hj : s.wait j = .free) :
    Kept s ((s.setWait j (.ended w c)).joinOwed w.client.port (.wait j)) where
  booked b := State.booked.setWait (s := s) b rfl
  owed _ o := by
    refine o.join (q := w.client.port) (x := .wait j) (fun p r hr => State.owesOn_setWait (s := s) hr _ p) (fun p => ?_)
      (fun p => ?_) (fun p => State.owed_joinOwed p _ _) o.2
    · simp [State.owesOn_wait, hj]
    · exact (State.owesOn_setWait_self (s := s) j _ p).trans (WaitEntry.ended_owesTo w c p)
  slots _ _ _ := id
  waits := State.waiter_setWait (s := s) rfl

/-- A wait entry leaves the owed list of a port and becomes FREE. -/
theorem Kept.clearWait {j : WaitNo} {q : CPort} (hq : owedLaw s → ∀ p, (s.wait j).owesTo p → p = q) :
    Kept s ((s.leaveOwed q (.wait j)).setWait j .free) where
  booked b := State.booked.setWait (s := s.leaveOwed q (.wait j)) b rfl
  owed _ o := by
    refine o.leave (q := q) (x := .wait j) (fun p r hr => ?_) (fun p => ?_) (hq o)
      (fun p => State.owed_leaveOwed p q _) o.2
    · exact State.owesOn_setWait (s := s.leaveOwed q (.wait j)) hr _ p
    · rw [State.owesOn_setWait_self]; exact WaitEntry.free_owesTo p
  slots _ _ _ := id
  waits := State.waiter_setWait (s := s.leaveOwed q (.wait j)) rfl

/-- A QUEUED wait is over: its entry becomes FREE, and its slot takes a body that owes nothing and counts for no other
client. -/
theorem Kept.endBooking {j : WaitNo} {w : Wait} {r : Limit} {i : SlotNo} {v : Slot}
    (hj : s.wait j = .queued w r i) (hv : ∀ p, ¬ v.body.owesTo p) (he : v.body.settled)
    (hc : ∀ c, v.body.occupant? = some c → c = w.client) : Kept s ((s.setSlot i v).setWait j .free) where
  booked b := by
    have freed : (s.setWait j .free).booked := b.setWait rfl
    have unnamed (k : WaitNo) {w' r' i'} (hk : (s.setWait j .free).wait k = .queued w' r' i') : i' ≠ i := by
      rintro rfl
      have hkj : k ≠ j := by rintro rfl; simp [State.wait_setWait] at hk
      rw [State.wait_setWait, if_neg hkj] at hk
      exact hkj (b.2 k j i' (by rw [hk]; rfl) (by rw [hj]; rfl))
    refine freed.mono (t := (s.setSlot i v).setWait j .free) (fun k w' r' i' h => ⟨r', h⟩) fun k w' r' i' h hi => ?_
    rw [State.setWait_slot, State.slot_setSlot, if_neg (unnamed k h)]
    exact hi
  owed b o := by
    have silent := SlotBody.not_owesTo_of_reservedFor (b.1 j w r i hj)
    refine o.same (fun p x => ?_) (fun _ => rfl) (State.settled_setSlot (s := s) o.2 he)
    exact (State.owesOn_setWait_silent (by simp [hj]) (by simp) p x).trans (State.owesOn_setSlot_silent silent hv p x)
  slots b := State.occupant_setSlot (s := s) fun c h => by
    rw [hc c h, SlotBody.occupant_of_reservedFor (b.1 j w r i hj)]
  waits := State.waiter_setWait (s := s.setSlot i v) rfl

end Sys2Proof.Machine
end

section
/-! PROOFS. What the operations on leases, waits, upgrades and notices keep: the records (`Kept`), and that no notice
comes to wait where its port has room (R104, R114, R123). -/

namespace Sys2Proof.Machine

/-! ### Room on a port (R110) -/

/-- A unit with at least the notices and the messages of another has no more room. -/
theorem PortUnit.room_anti {p : PortId} {u v : PortUnit} (hn : u.notices ≤ v.notices) (ht : u.taken ≤ v.taken)
    (h : u.room p = false) : v.room p = false := by
  simp only [PortUnit.room, Bool.and_eq_false_iff, decide_eq_false_iff_not, Nat.not_lt] at h ⊢
  omega

/-- A unit whose queue grows loses room. -/
theorem PortUnit.room_append {p : PortId} {u v : PortUnit} {ms : List Message} (hq : v.queue = u.queue ++ ms)
    (ht : u.taken ≤ v.taken) (h : u.room p = false) : v.room p = false :=
  PortUnit.room_anti (by simp [PortUnit.notices, hq]) ht h

/-- A unit with the same queue and the same reservation has the same room. -/
theorem PortUnit.room_congr {p : PortId} {u v : PortUnit} (hq : v.queue = u.queue) (hr : v.reserved = u.reserved) :
    v.room p = u.room p := by
  rw [PortUnit.room, PortUnit.room, PortUnit.notices, PortUnit.notices, PortUnit.taken, PortUnit.taken, hq, hr]

theorem State.room_pushMessage (s : State) (p q : PortId) (m : Message) (h : (s.port q).room q = false) :
    ((s.pushMessage p m).port q).room q = false := by
  rw [State.port_pushMessage]
  split
  · rename_i e; subst e
    exact PortUnit.room_append (u := s.port q) rfl (by simp [PortUnit.taken]) h
  · exact h

/-! ### The notices that wait (R104, R114, R123) -/

/-- No owed notice of the port waits where there is room for it (R114). -/
def State.served (s : State) (p : CPort) : Prop :=
  (s.side p).owed = [] ∨ (s.port (.client p)).room (.client p) = false

/-- No held notice of port S waits where there is room for it (R123). -/
def State.heldServed (s : State) : Prop := s.heldNotices = 0 ∨ s.supRoom = false

/-- No resource has two PENDING entries (R8). -/
def State.onePending (s : State) : Prop := ∀ n : ResNo, (s.activations.countP fun a => a.pendingFor n) ≤ 1

theorem onePending_of_activationLaw {s : State} (h : activationLaw s) : s.onePending := fun n => by
  rw [h.2 n]; exact Bool.toNat_le _

/-- A port whose owed list stays empty and that gains no room stays served. -/
theorem State.served.mono {s t : State} {p : CPort} (h : s.served p)
    (ho : (s.side p).owed = [] → (t.side p).owed = [])
    (hr : (s.port (.client p)).room (.client p) = false → (t.port (.client p)).room (.client p) = false) :
    t.served p := Or.imp ho hr h

/-- A port that can take no notice has a notice owed or no room, so that a notice may join its owed list. -/
theorem State.room_of_not_canTake {s : State} {p : CPort} (h : s.canTake p = false) (hs : s.served p) :
    (s.port (.client p)).room (.client p) = false := by
  rcases hs with hs | hs
  · simpa [State.canTake, hs] using h
  · exact hs

/-- What an operation that applies no activation and raises no supervisor notice keeps: the records, the ports served,
and all that port S and its held notices are. -/
structure Tidy (s t : State) : Prop extends Kept s t where
  served : ∀ p, s.served p → t.served p
  activations : t.activations = s.activations
  supPort : t.port .sup = s.port .sup
  held : t.store.held = s.store.held

/-- What an operation keeps: the records, and that no notice waits where there is room for it. -/
structure Orderly (s t : State) : Prop extends Kept s t where
  served : ∀ p, s.served p → t.served p
  pending : s.onePending → t.onePending
  heldServed : s.onePending → s.heldServed → t.heldServed

theorem Tidy.refl {s : State} : Tidy s s := ⟨.refl, fun _ => id, rfl, rfl, rfl⟩

theorem Tidy.trans {s t u : State} (h : Tidy s t) (k : Tidy t u) : Tidy s u :=
  ⟨h.toKept.trans k.toKept, fun p x => k.served p (h.served p x), k.activations.trans h.activations,
    k.supPort.trans h.supPort, k.held.trans h.held⟩

theorem Orderly.refl {s : State} : Orderly s s := ⟨.refl, fun _ => id, id, fun _ => id⟩

theorem Orderly.trans {s t u : State} (h : Orderly s t) (k : Orderly t u) : Orderly s u :=
  ⟨h.toKept.trans k.toKept, fun p x => k.served p (h.served p x), fun x => k.pending (h.pending x),
    fun x y => k.heldServed (h.pending x) (h.heldServed x y)⟩

theorem Tidy.heldNotices {s t : State} (h : Tidy s t) : t.heldNotices = s.heldNotices := by
  rw [State.heldNotices, State.heldNotices, h.held, h.activations]

theorem Tidy.supRoom {s t : State} (h : Tidy s t) : t.supRoom = s.supRoom := by
  rw [State.supRoom, State.supRoom, h.supPort]

theorem Tidy.orderly {s t : State} (h : Tidy s t) : Orderly s t :=
  ⟨h.toKept, h.served, fun x n => by rw [h.activations]; exact x n,
    fun _ x => by rw [State.heldServed, h.heldNotices, h.supRoom]; exact x⟩

theorem Tidy.foldl {α : Type} {f : State → α → State} (hf : ∀ t a, Tidy t (f t a)) (l : List α) (s : State) :
    Tidy s (l.foldl f s) := by
  induction l generalizing s with
  | nil => exact .refl
  | cons a t ih => exact (hf s a).trans (ih _)

theorem Orderly.foldl {α : Type} {f : State → α → State} (hf : ∀ t a, Orderly t (f t a)) (l : List α)
    (s : State) :
    Orderly s (l.foldl f s) := by
  induction l generalizing s with
  | nil => exact .refl
  | cons a t ih => exact (hf s a).trans (ih _)

/-- An operation on the records that touches no port and no supervisor notice, and by which no owed list grows. -/
theorem Kept.tidy {s t : State} (h : Kept s t) (hp : t.ports = s.ports) (ha : t.activations = s.activations)
    (hh : t.store.held = s.store.held) (ho : ∀ p, (s.side p).owed = [] → (t.side p).owed = []) : Tidy s t where
  toKept := h
  served p x := x.mono (ho p) (by rw [State.port, State.port, hp]; exact id)
  activations := ha
  supPort := by rw [State.port, State.port, hp]
  held := hh

/-- An operation on no slot, wait entry, owed list or port, and on no supervisor notice. -/
theorem Tidy.of_same {s t : State} (hs : t.slots = s.slots) (hw : t.waits = s.waits) (hd : t.sides = s.sides)
    (hp : t.ports = s.ports) (ha : t.activations = s.activations) (hh : t.store.held = s.store.held) : Tidy s t :=
  have owed : ∀ p, (t.side p).owed = (s.side p).owed := fun p => by rw [State.side, State.side, hd]
  (Kept.of_same hs hw owed).tidy hp ha hh fun p h => by rw [owed, h]

variable {s : State}

/-! ### Updates -/

theorem tidy_setRecord (n : ResNo) (r : Record) : Tidy s (s.setRecord n r) := .of_same rfl rfl rfl rfl rfl rfl

/-- A slot takes a body that stands for what its old one did. -/
theorem tidy_setSlot {i : SlotNo} {v : Slot} (h : (s.slot i).body.Alike v.body) : Tidy s (s.setSlot i v) :=
  (Kept.setSlot h).tidy rfl rfl rfl fun _ => id

theorem tidy_setBody {i : SlotNo} {b : SlotBody} (h : (s.slot i).body.Alike b) : Tidy s (s.setBody i b) :=
  tidy_setSlot h

/-- A notice joins a client port's queue. -/
theorem tidy_pushMessage (p : CPort) (m : Message) : Tidy s (s.pushMessage (.client p) m) where
  toKept := .of_same rfl rfl fun _ => rfl
  served q x := x.mono id (State.room_pushMessage s _ _ m)
  activations := rfl
  supPort := by simp [State.port_pushMessage]
  held := rfl

/-- A record joins the owed list of a port that can take no notice. -/
theorem State.served_joinOwed {t : State} {p : CPort} {r : Ref} (hp : t.ports = s.ports) (hd : t.sides = s.sides)
    (hc : s.canTake p = false) (q : CPort) (h : s.served q) : (t.joinOwed p r).served q := by
  by_cases e : q = p
  · subst e
    right
    rw [State.joinOwed_port, State.port, hp]
    exact State.room_of_not_canTake hc h
  · simp only [State.served, State.joinOwed_port, State.side_joinOwed, e, if_false]
    rw [State.side, State.port, hp, hd]
    exact h

/-- A slot joins the owed list of a port that can take no notice. -/
theorem tidy_oweSlot {i : SlotNo} {v : Slot} {q : CPort} (hc : s.canTake q = false)
    (h : Kept s ((s.setSlot i v).joinOwed q (.slot i))) : Tidy s ((s.setSlot i v).joinOwed q (.slot i)) where
  toKept := h
  served := State.served_joinOwed rfl rfl hc
  activations := rfl
  supPort := rfl
  held := rfl

theorem State.leaveOwed_nil {p q : CPort} {r : Ref} (h : (s.side p).owed = []) :
    ((s.leaveOwed q r).side p).owed = [] := by
  rw [State.side_leaveOwed]
  split
  · rename_i e; subst e; simp [h]
  · exact h

/-! ### Notices -/

theorem SlotBody.lease_mapLease {f : Lease → Lease} (b : SlotBody) : (b.mapLease f).lease? = b.lease?.map f := by
  cases b <;> rfl

theorem SlotBody.reservedFor_mapLease {f : Lease → Lease} {b : SlotBody} {w : Wait} (h : b.reservedFor w) :
    (b.mapLease f).reservedFor w := by
  cases b <;> simp_all [SlotBody.mapLease, SlotBody.reservedFor]

/-- The lease with another owed notice. -/
def Lease.owing (o : Option Owed) (l : Lease) : Lease := { l with owed := o }

theorem SlotBody.occupant_owing (o : Option Owed) (b : SlotBody) :
    (b.mapLease (Lease.owing o)).occupant? = b.occupant? := by
  cases b <;> rfl

/-- A notice raised for a slot that owes one already (R113): an ENDED slot owes LEASE_ENDED still. -/
theorem SlotBody.alike_owing_merge {b : SlotBody} {l : Lease} {o : Owed} (k : Owed) (hl : b.lease? = some l)
    (ho : l.owed = some o) : b.Alike (b.mapLease (Lease.owing (some (o.merge k)))) where
  reservedFor _ := SlotBody.reservedFor_mapLease
  owesTo p := by simp [SlotBody.owesTo, SlotBody.lease_mapLease, hl, Lease.owing, ho]
  settled h := by
    have merged : o = .leaseEnded → o.merge k = .leaseEnded := by rintro rfl; cases k <;> rfl
    cases b <;> simp_all [SlotBody.mapLease, SlotBody.lease?, Lease.owing]
  occupant c h := by rwa [SlotBody.occupant_owing] at h

/-- A notice raised for a slot that owes none. -/
theorem SlotBody.comesToOwe_owing {b : SlotBody} {l : Lease} (k : Owed) (hl : b.lease? = some l)
    (ho : l.owed = none) : b.ComesToOwe l.client.port (b.mapLease (Lease.owing (some k))) where
  reservedFor _ := SlotBody.reservedFor_mapLease
  silent p := by simp [SlotBody.owesTo_of_lease hl, ho]
  owesTo p := by simp [SlotBody.owesTo, SlotBody.lease_mapLease, hl, Lease.owing, eq_comm]
  settled h := by cases b <;> simp_all [SlotBody.mapLease, SlotBody.lease?]
  occupant c h := by rwa [SlotBody.occupant_owing] at h

/-- A notice offered for a slot is queued, owed, or merged with the one owed (R111, R113). -/
theorem tidy_offer (i : SlotNo) (k : Owed) : Tidy s (s.offer i k) := by
  simp only [State.offer]
  split
  · exact .refl
  · rename_i l hl
    split
    · exact tidy_pushMessage _ _
    · rename_i hc
      split
      · exact tidy_oweSlot (by simpa using hc) (Kept.oweSlot (SlotBody.comesToOwe_owing k hl ‹_›))
      · exact tidy_setBody (SlotBody.alike_owing_merge k hl ‹_›)

/-- A slot that is RESERVED for no wait becomes FREE. -/
theorem SlotBody.subsides_free {b : SlotBody} (h : ∀ w, ¬ b.reservedFor w) : b.Subsides .free :=
  ⟨fun w x => absurd x (h w), by simp, by simp, by simp [SlotBody.occupant?]⟩

/-- Withdrawal frees a slot in ENDED, and lets any other owe nothing (R112). -/
theorem State.dropOwed_slot (s : State) (i : SlotNo) :
    ∃ v : Slot, s.dropOwed (.slot i) = s.setSlot i v ∧ (s.slot i).body.Subsides v.body := by
  have kept (h : ∀ l g c, (s.slot i).body ≠ .ended l g c) :
      (s.slot i).body.Subsides ((s.slot i).body.mapLease (Lease.owing none)) := by
    refine ⟨fun _ => SlotBody.reservedFor_mapLease, fun p => ?_, ?_, fun c x => ?_⟩
    · simp [SlotBody.owesTo, SlotBody.lease_mapLease, Lease.owing]
    · cases e : (s.slot i).body <;> simp_all [SlotBody.mapLease]
    · rwa [SlotBody.occupant_owing] at x
  simp only [State.dropOwed]
  split
  · rename_i e
    exact ⟨_, rfl, SlotBody.subsides_free (by simp [e, SlotBody.reservedFor])⟩
  all_goals exact ⟨_, rfl, kept (by simp [*])⟩

/-- Withdrawal frees a wait entry in ENDED (R112). -/
theorem State.dropOwed_wait {j : WaitNo} {w : Wait} {c : WaitCause} (h : s.wait j = .ended w c) :
    s.dropOwed (.wait j) = s.setWait j .free := by
  simp [State.dropOwed, h]

/-- A record owes on one port at most. -/
theorem State.owesOn_unique {p q : CPort} {r : Ref} (hp : s.owesOn p r) (hq : s.owesOn q r) : q = p := by
  cases r with
  | slot i =>
    obtain ⟨l, hl, rfl, -⟩ := hp
    obtain ⟨x, hx, rfl, -⟩ := hq
    simp_all
  | wait j =>
    obtain ⟨w, c, hw, rfl⟩ := hp
    obtain ⟨x, d, hx, rfl⟩ := hq
    simp_all

/-- A record that stands on the port's owed list is withdrawn (R112). -/
theorem tidy_withdraw {p : CPort} {r : Ref} (h : owedLaw s → r ∈ (s.side p).owed) : Tidy s (s.withdraw p r) := by
  have owes (o : owedLaw s) : s.owesOn p r := ((o.1 p).2 r).1 (h o)
  cases r with
  | slot i =>
    obtain ⟨v, hv, hb⟩ := State.dropOwed_slot (s.leaveOwed p (.slot i)) i
    rw [State.withdraw, hv]
    exact (Kept.clearSlot (s := s) hb fun o q => State.owesOn_unique (owes o)).tidy rfl rfl rfl
      fun q => State.leaveOwed_nil
  | wait j =>
    by_cases e : ∃ w c, s.wait j = .ended w c
    · obtain ⟨w, c, e⟩ := e
      rw [State.withdraw, State.dropOwed_wait (by exact e)]
      exact (Kept.clearWait (s := s) fun o q => State.owesOn_unique (owes o)).tidy rfl rfl rfl
        fun q => State.leaveOwed_nil
    · have drop : s.withdraw p (.wait j) = s.leaveOwed p (.wait j) := by
        simp only [State.withdraw, State.dropOwed, State.leaveOwed_wait]
        split
        · rename_i w c x; exact absurd ⟨w, c, x⟩ e
        all_goals rfl
      have none (o : owedLaw s) : False := by
        obtain ⟨w, c, x, -⟩ := owes o
        exact e ⟨w, c, x⟩
      rw [drop]
      exact Kept.tidy ⟨id, fun _ o => (none o).elim, fun _ _ _ => id, fun _ _ => id⟩ rfl rfl rfl
        fun q => State.leaveOwed_nil

theorem State.side_dropOwed (r : Ref) (q : CPort) : (s.dropOwed r).side q = s.side q := by
  cases r <;> simp only [State.dropOwed] <;> split <;> rfl

/-- Records of the port's owed list, in its order, are withdrawn (R112). -/
theorem tidy_withdrawAll {p : CPort} {refs : List Ref} (h : refs.Sublist (s.side p).owed) :
    Tidy s (s.withdrawAll p refs) := by
  induction refs generalizing s with
  | nil => exact .refl
  | cons r rest ih =>
    refine (tidy_withdraw fun _ => h.subset List.mem_cons_self).trans (ih ?_)
    rw [State.withdraw, State.side_dropOwed, State.owed_leaveOwed, if_pos rfl]
    simpa using h.erase r

theorem State.dropOwed_pushMessage (q : PortId) (m : Message) (r : Ref) :
    (s.pushMessage q m).dropOwed r = (s.dropOwed r).pushMessage q m := by
  cases r with
  | slot i => simp only [State.dropOwed, State.pushMessage_slot]; split <;> rfl
  | wait j => simp only [State.dropOwed, State.pushMessage_wait]; split <;> rfl

/-- The head of an owed list is delivered: its notice is queued and the record withdrawn, or there was none (R114). -/
theorem State.deliverRef_cases (s : State) (p : CPort) (r : Ref) :
    (∃ m, (s.leaveOwed p r).deliverRef p r = (s.withdraw p r).pushMessage (.client p) m)
      ∨ (¬ s.owesOn p r ∧ (s.leaveOwed p r).deliverRef p r = s.leaveOwed p r) := by
  cases r with
  | slot i =>
    simp only [State.deliverRef, State.leaveOwed_slot, State.owesOn_slot]
    split
    · rename_i l hl
      split
      · exact .inl ⟨_, State.dropOwed_pushMessage _ _ _⟩
      · rename_i ho
        exact .inr ⟨by simp [SlotBody.owesTo_of_lease hl, ho], rfl⟩
    · rename_i hl
      exact .inr ⟨by simp [SlotBody.owesTo, hl], rfl⟩
  | wait j =>
    simp only [State.deliverRef, State.leaveOwed_wait, State.owesOn_wait]
    split
    · rename_i w c e
      exact .inl ⟨waitEndedNotice w c.code, by rw [State.withdraw, State.dropOwed_wait (by exact e)]; rfl⟩
    all_goals
      rename_i e
      exact .inr ⟨by simp [e], rfl⟩

theorem tidy_deliverRef {p : CPort} {r : Ref} (h : r ∈ (s.side p).owed) :
    Tidy s ((s.leaveOwed p r).deliverRef p r) := by
  rcases State.deliverRef_cases s p r with ⟨m, e⟩ | ⟨hn, e⟩ <;> rw [e]
  · exact (tidy_withdraw fun _ => h).trans (tidy_pushMessage p m)
  · exact Kept.tidy ⟨id, fun _ o => absurd (((o.1 p).2 r).1 h) hn, fun _ _ _ => id, fun _ _ => id⟩ rfl rfl rfl
      fun q => State.leaveOwed_nil

theorem State.setSide_tail {p : CPort} {r : Ref} {rest : List Ref} (h : (s.side p).owed = r :: rest) :
    s.setSide p { s.side p with owed := rest } = s.leaveOwed p r := by
  simp [State.leaveOwed, h]

theorem tidy_deliverOwed (fuel : Nat) (p : CPort) : Tidy s (State.deliverOwed fuel p s) := by
  induction fuel generalizing s with
  | zero => exact .refl
  | succ n ih =>
    simp only [State.deliverOwed]
    split
    · exact .refl
    · rename_i r rest h
      split
      · rw [State.setSide_tail h]
        exact (tidy_deliverRef (by simp [h])).trans ih
      · exact .refl

/-- Delivery of the owed notices of a port (R114). -/
theorem tidy_deliverAllOwed (p : CPort) : Tidy s (s.deliverAllOwed p) := tidy_deliverOwed _ p

theorem State.side_deliverRef (p q : CPort) (r : Ref) : (s.deliverRef p r).side q = s.side q := by
  cases r with
  | slot i =>
    simp only [State.deliverRef]
    split
    · split
      · rw [State.side_dropOwed, State.pushMessage_side]
      · rfl
    · rfl
  | wait j => simp only [State.deliverRef]; split <;> rfl

/-- Delivery leaves no owed notice waiting where there is room (R114), whatever waited before. -/
theorem State.served_deliverOwed {fuel : Nat} {p : CPort} (h : (s.side p).owed.length ≤ fuel) :
    (State.deliverOwed fuel p s).served p := by
  induction fuel generalizing s with
  | zero => exact .inl (List.length_eq_zero_iff.1 (Nat.le_zero.1 h))
  | succ n ih =>
    simp only [State.deliverOwed]
    split
    · rename_i e; exact .inl e
    · rename_i r rest e
      split
      · refine ih ?_
        rw [State.side_deliverRef, State.side_setSide, if_pos rfl]
        simpa [e] using h
      · rename_i full; exact .inr (by simpa using full)

theorem State.served_deliverAllOwed (p : CPort) : (s.deliverAllOwed p).served p :=
  State.served_deliverOwed (Nat.le_refl _)

/-! ### The end of a wait (R51, R52) -/

/-- Steps 1 and 2 of R51, with the entry FREE. -/
theorem tidy_leaveQueue {j : WaitNo} {w : Wait} {r : Limit} {i : SlotNo} (h : s.wait j = .queued w r i) (n : ResNo) :
    Tidy s ((s.leaveQueue j n i).setWait j .free) :=
  (tidy_setRecord n _).trans <| Kept.tidy (s := s.setRecord n _)
    (Kept.endBooking h (by simp) (by simp) (by simp [SlotBody.occupant?])) rfl rfl rfl fun _ => id

/-- A FREE wait entry becomes ENDED and owed on a port that can take no notice. -/
theorem tidy_oweWait {j : WaitNo} {w : Wait} {c : WaitCause} (hj : s.wait j = .free)
    (hc : s.canTake w.client.port = false) :
    Tidy s ((s.setWait j (.ended w c)).joinOwed w.client.port (.wait j)) where
  toKept := .oweWait hj
  served := State.served_joinOwed rfl rfl hc
  activations := rfl
  supPort := rfl
  held := rfl

/-- A wait ends: its entry is FREE and WAIT_ENDED queued, or it is ENDED and owes it (R51, R52). -/
theorem tidy_endWait (cause : WaitCause) (j : WaitNo) : Tidy s (s.endWait cause j) := by
  simp only [State.endWait]
  split
  · rename_i w r i h
    have quit := tidy_leaveQueue h w.resource
    split
    · exact quit.trans (tidy_pushMessage w.client.port (waitEndedNotice w cause.code))
    · rename_i hc
      have owe := tidy_oweWait (s := (s.leaveQueue j w.resource i).setWait j .free) (j := j) (w := w) (c := cause)
        (by simp [State.wait_setWait]) (by exact (Bool.not_eq_true _).mp hc)
      rw [State.setWait_setWait] at owe
      exact quit.trans owe
  all_goals exact .refl

theorem tidy_endWaitPurged (j : WaitNo) : Tidy s (s.endWaitPurged j) := by
  simp only [State.endWaitPurged]
  split
  · rename_i w r i h
    have quit := tidy_leaveQueue h w.resource
    split
    · exact quit.trans (tidy_pushMessage w.client.port (waitEndedNotice w purgedWaitCode))
    · exact quit
  all_goals exact .refl

theorem tidy_endWaitQuiet (j : WaitNo) : Tidy s (s.endWaitQuiet j) := by
  simp only [State.endWaitQuiet]
  split
  · exact tidy_leaveQueue ‹_› _
  all_goals exact .refl

theorem tidy_exhaust (n : ResNo) : Tidy s (s.exhaust n) := by
  simp only [State.exhaust]
  split
  · exact (tidy_setRecord _ _).trans (Tidy.foldl (fun t j => tidy_endWait .fenceSpent j) _ _)
  · exact .refl

/-! ### The pending upgrade (R65, R68, R69) -/

theorem tidy_clearUpgrade (n : ResNo) : Tidy s (s.clearUpgrade n) := by
  simp only [State.clearUpgrade]
  split
  · exact .refl
  · exact (tidy_setRecord _ _).trans (tidy_setBody (SlotBody.alike_dropDeadline _))

theorem tidy_upgradeSlot (i : SlotNo) (n : ResNo) : Tidy s (s.upgradeSlot i n) :=
  (tidy_setRecord _ _).trans <| tidy_setBody <|
    (SlotBody.alike_dropDeadline _).trans (SlotBody.alike_mapLease _ (fun _ => rfl) fun _ => rfl)

theorem tidy_endUpgrade (n : ResNo) (cause : UpgradeEndCause) : Tidy s (s.endUpgrade n cause) := by
  simp only [State.endUpgrade]
  split
  · exact .refl
  · exact (tidy_clearUpgrade n).trans (tidy_offer _ _)

theorem tidy_serveUpgrade (n : ResNo) : Tidy s (s.serveUpgrade n) := by
  simp only [State.serveUpgrade]
  split
  · exact .refl
  · split
    · exact (tidy_upgradeSlot _ n).trans ((tidy_offer _ _).trans (tidy_exhaust n))
    · exact .refl

/-! ### Grants from the queue (R60) -/

/-- The lease a grant gives (R22, R27). -/
def State.newLease (s : State) (n : ResNo) (c : Client) (m : Mode) (term : Nat) : Lease :=
  { resource := n, client := c, mode := m, fence := s.nextFence n, granted := (s.entry n).fieldsD.termFor term,
    remaining := (s.entry n).fieldsD.termFor term, renewals := 0, warned := false, owed := none }

/-- The slot as a grant leaves it (R22). -/
def State.grantedSlot (s : State) (i : SlotNo) (n : ResNo) (c : Client) (m : Mode) (term : Nat) : Slot :=
  { s.slot i with body := .active (s.newLease n c m term) none }

/-- A granted slot owes nothing, and counts for its client. -/
theorem State.grantedSlot_body (s : State) (i : SlotNo) (n : ResNo) (c : Client) (m : Mode) (term : Nat) :
    (∀ p, ¬ (s.grantedSlot i n c m term).body.owesTo p) ∧ (s.grantedSlot i n c m term).body.settled
      ∧ (s.grantedSlot i n c m term).body.occupant? = some c := by
  refine ⟨fun p => ?_, SlotBody.active_settled _ _, rfl⟩
  simp [SlotBody.owesTo, SlotBody.lease?, State.grantedSlot, State.newLease]

/-- The head of the queue is granted: its slot counts for the same client as before. -/
theorem tidy_grantWait {j : WaitNo} {w : Wait} {r : Limit} {i : SlotNo} (h : s.wait j = .queued w r i) (n : ResNo) :
    Tidy s (s.grantWait n j w i) := by
  obtain ⟨silent, settled, counts⟩ := s.grantedSlot_body i n w.client w.mode (s.slot i).body.requestedTerm
  have booking := Kept.endBooking h silent settled fun c x => by rw [counts] at x; exact (Option.some.inj x).symm
  simp only [State.grantWait]
  refine Tidy.trans ?_ ((tidy_offer i (.granted w.rid)).trans (tidy_exhaust n))
  refine Kept.tidy ?_ rfl rfl rfl fun _ => id
  exact booking.trans (.of_same rfl rfl fun _ => rfl)

theorem tidy_grantHead {t : State} {n : ResNo} (h : s.grantHead? n = some t) : Tidy s t := by
  simp only [State.grantHead?] at h
  split at h
  · simp at h
  · split at h
    · rename_i hj
      split at h
      · obtain rfl := Option.some.inj h
        exact tidy_grantWait hj n
      · simp at h
    all_goals simp at h

theorem tidy_grantHeads (fuel : Nat) (n : ResNo) : Tidy s (State.grantHeads fuel n s) := by
  induction fuel generalizing s with
  | zero => exact .refl
  | succ k ih =>
    simp only [State.grantHeads]
    split
    · exact .refl
    · rename_i h; exact (tidy_grantHead h).trans ih

/-- Steps 2 and 3 of the grant rule (R59). -/
theorem tidy_serve (n : ResNo) : Tidy s (s.serve n) := (tidy_serveUpgrade n).trans (tidy_grantHeads _ n)

theorem tidy_recheck (n : ResNo) (image : Entry) : Tidy s (s.recheck n image) := by
  refine Tidy.foldl (fun t j => ?_) _ _
  split
  · exact tidy_endWait _ _
  · exact .refl

theorem tidy_putInForce (n : ResNo) (image : Entry) : Tidy s (s.putInForce n image) :=
  .of_same rfl rfl rfl rfl rfl rfl

/-! ### The end of a lease (R32, R33) -/

/-- A live slot becomes FREE. -/
theorem SlotBody.subsides_of_live {b : SlotBody} {l : Lease} (h : b.live? = some l) : b.Subsides .free :=
  SlotBody.subsides_free (SlotBody.not_reservedFor_of_lease (SlotBody.lease_of_live h))

theorem tidy_leaveHolders (i : SlotNo) (n : ResNo) : Tidy s (s.leaveHolders i n) := tidy_setRecord n _

/-- A live slot leaves the owed list of its client's port and becomes FREE. -/
theorem tidy_quitSlot {i : SlotNo} {l : Lease} (h : (s.slot i).body.live? = some l) (n : ResNo) :
    Tidy s (((s.leaveHolders i n).leaveOwed l.client.port (.slot i)).freeSlot i) := by
  refine (tidy_leaveHolders i n).trans (Kept.tidy (Kept.clearSlot (SlotBody.subsides_of_live h) fun _ p hp => ?_)
    rfl rfl rfl fun _ => State.leaveOwed_nil)
  exact ((SlotBody.owesTo_of_lease (SlotBody.lease_of_live h) p).1 hp).1.symm

theorem tidy_endLeaseQuiet (i : SlotNo) : Tidy s (s.endLeaseQuiet i) := by
  simp only [State.endLeaseQuiet]
  split
  · exact .refl
  · exact tidy_quitSlot ‹_› _

/-- A live slot that owes nothing becomes FREE. -/
theorem SlotBody.alike_free_of_live {b : SlotBody} {l : Lease} (h : b.live? = some l) (ho : l.owed = none) :
    b.Alike .free :=
  have q := SlotBody.subsides_of_live h
  ⟨q.reservedFor, fun p => by simp [SlotBody.owesTo_of_lease (SlotBody.lease_of_live h), ho], fun _ => q.settled,
    q.occupant⟩

/-- A live slot that owes nothing becomes FREE with its notice queued. -/
theorem tidy_freeNotified {i : SlotNo} {l : Lease} (h : (s.slot i).body.live? = some l) (ho : l.owed = none) (n : ResNo)
    (m : Message) : Tidy s (((s.leaveHolders i n).pushMessage (.client l.client.port) m).freeSlot i) :=
  (tidy_leaveHolders i n).trans <| (tidy_pushMessage l.client.port m).trans <|
    tidy_setSlot (SlotBody.alike_free_of_live h ho)

theorem tidy_endLeasePurged (i : SlotNo) : Tidy s (s.endLeasePurged i) := by
  simp only [State.endLeasePurged]
  split
  · exact .refl
  · rename_i l h
    split
    · rename_i hc
      simp only [Bool.and_eq_true, Option.isNone_iff_eq_none] at hc
      exact tidy_freeNotified h hc.1 _ _
    · exact tidy_quitSlot h _

/-- The ENDED body of a lease that ends owing LEASE_ENDED (R33). -/
theorem SlotBody.comesToOwe_ended {b : SlotBody} {l : Lease} (g : Option Nat) (c : EndCause) (h : b.live? = some l)
    (ho : l.owed = none) : b.ComesToOwe l.client.port (.ended (l.owing (some .leaseEnded)) g c) where
  reservedFor w x := absurd x (SlotBody.not_reservedFor_of_lease (SlotBody.lease_of_live h) w)
  silent p := by simp [SlotBody.owesTo_of_lease (SlotBody.lease_of_live h), ho]
  owesTo p := by simp [SlotBody.owesTo, SlotBody.lease?, Lease.owing, eq_comm]
  settled _ := by simp [Lease.owing]
  occupant c := by simp [SlotBody.occupant?]

theorem SlotBody.alike_ended {b : SlotBody} {l : Lease} (g : Option Nat) (c : EndCause) (h : b.live? = some l)
    (ho : l.owed ≠ none) : b.Alike (.ended (l.owing (some .leaseEnded)) g c) where
  reservedFor w x := absurd x (SlotBody.not_reservedFor_of_lease (SlotBody.lease_of_live h) w)
  owesTo p := by
    rw [SlotBody.owesTo_of_lease (SlotBody.lease_of_live h), SlotBody.owesTo_of_lease rfl]
    simp [Lease.owing, ho]
  settled _ := by simp [Lease.owing]
  occupant c := by simp [SlotBody.occupant?]

/-- A lease ends: its slot is FREE and LEASE_ENDED queued, or it is ENDED and owes it (R32, R33). -/
theorem tidy_endLease (cause : EndCause) (i : SlotNo) : Tidy s (s.endLease cause i) := by
  simp only [State.endLease]
  split
  · exact .refl
  · rename_i l h
    split
    · rename_i hc
      simp only [Bool.and_eq_true, Option.isNone_iff_eq_none] at hc
      exact tidy_freeNotified h hc.1 _ _
    · rename_i hc
      split
      · rename_i ho
        rw [Option.isNone_iff_eq_none] at ho
        simp only [ho, Option.isNone_none, Bool.true_and, Bool.not_eq_true] at hc
        exact (tidy_leaveHolders i l.resource).trans (tidy_oweSlot hc (.oweSlot (SlotBody.comesToOwe_ended _ _ h ho)))
      · rename_i ho
        rw [Option.isNone_iff_eq_none] at ho
        exact (tidy_leaveHolders i l.resource).trans (tidy_setBody (SlotBody.alike_ended _ _ h ho))

/-! ### Revocation (R85) -/

theorem tidy_revokeSlot (i : SlotNo) (g : Nat) : Tidy s (s.revokeSlot i g) := by
  simp only [State.revokeSlot]
  split
  · rename_i l d h
    have revoking (t : State) (e : t.slot i = s.slot i) :
        Tidy t ((t.setBody i (.revoking l g)).offer i .revokeNotice) :=
      (tidy_setBody (SlotBody.alike_of_live (l := l) (x := l) (by rw [e, h]; rfl) rfl rfl rfl)).trans (tidy_offer _ _)
    split
    · exact tidy_endLease _ _
    · split
      · exact (tidy_setRecord l.resource _).trans (revoking _ rfl)
      · exact revoking _ rfl
  all_goals exact .refl

theorem tidy_revokeAll (ls : List SlotNo) (g : Nat) : Tidy s (s.revokeAll ls g) :=
  Tidy.foldl (fun _ i => tidy_revokeSlot i g) ls s

/-! ### Lists of them -/

theorem tidy_endWaitsQuiet (js : List WaitNo) : Tidy s (s.endWaitsQuiet js) :=
  Tidy.foldl (fun _ j => tidy_endWaitQuiet j) js s

theorem tidy_endLeasesQuiet (ls : List SlotNo) : Tidy s (s.endLeasesQuiet ls) :=
  Tidy.foldl (fun _ i => tidy_endLeaseQuiet i) ls s

theorem tidy_clearUpgrades (ns : List ResNo) : Tidy s (s.clearUpgrades ns) :=
  Tidy.foldl (fun _ n => tidy_clearUpgrade n) ns s

/-! ### Ticks (R79, R49, R67) -/

/-- Every slot takes a body that stands for what its old one did. -/
theorem tidy_mapSlots {f : SlotBody → SlotBody} (h : ∀ b : SlotBody, b.Alike (f b)) :
    Tidy s { s with slots := vmap (fun v => { v with body := f v.body }) s.slots } := by
  refine Kept.tidy (Kept.of_alike (fun i => ?_) (fun _ => .refl) fun _ => rfl) rfl rfl rfl fun _ => id
  simp only [State.slot, vmap_get]
  exact h _

theorem SlotBody.alike_ticked (b : SlotBody) : b.Alike b.ticked := by
  cases b with
  | active l d => exact SlotBody.alike_of_live (l := l) (x := { l with remaining := l.remaining - 1 }) rfl rfl rfl rfl
  | revoking l g => exact SlotBody.alike_of_live (l := l) (x := { l with remaining := l.remaining - 1 }) rfl rfl rfl rfl
  | _ => exact .refl

theorem SlotBody.alike_deadlineTicked (b : SlotBody) : b.Alike b.deadlineTicked := by
  cases b with
  | active l d => exact SlotBody.alike_of_live (l := l) (x := l) rfl rfl rfl rfl
  | _ => exact .refl

theorem WaitEntry.alike_ticked (x : WaitEntry) : x.Alike x.ticked := by
  cases x with
  | queued w r i => exact ⟨by simp [WaitEntry.ticked], by simp [WaitEntry.ticked]⟩
  | _ => exact .refl

theorem tidy_tickSlots : Tidy s s.tickSlots := tidy_mapSlots SlotBody.alike_ticked

theorem tidy_tickDeadlines : Tidy s s.tickDeadlines := tidy_mapSlots SlotBody.alike_deadlineTicked

theorem tidy_tickWaits : Tidy s s.tickWaits := by
  refine Kept.tidy (Kept.of_alike (fun _ => .refl) (fun j => ?_) fun _ => rfl) rfl rfl rfl fun _ => id
  simp only [State.wait, State.tickWaits, vmap_get]
  exact WaitEntry.alike_ticked _

theorem tidy_warn (i : SlotNo) : Tidy s (s.warn i) := by
  simp only [State.warn]
  split
  · rename_i l d h
    split
    · exact (tidy_setBody (SlotBody.alike_of_live (l := l) (x := { l with warned := true }) (by rw [h]; rfl) rfl rfl
        rfl)).trans (tidy_offer _ _)
    · exact .refl
  all_goals exact .refl

theorem tidy_tickSlot (i : SlotNo) : Tidy s (s.tickSlot i) := by
  simp only [State.tickSlot]
  split
  · exact tidy_endLease _ _
  · exact tidy_warn _

theorem tidy_endTimeouts (ns : List ResNo) : Tidy s (s.endTimeouts ns) := by
  refine Tidy.foldl (fun t n => ?_) ns s
  split
  · exact tidy_endWait _ _
  · exact .refl

end Sys2Proof.Machine
end

section
/-! PROOFS. The grant rule, the activation list, the store's notices, the transactions and the port requests keep the
records, and leave no notice waiting where there is room for it (R104, R114, R123). -/

namespace Sys2Proof.Machine

variable {s : State}

/-! ### The activation list's notices (R15, R122, R123) -/

/-- An entry of the activation list holds a notice exactly when it is APPLIED (Table 1-3). -/
theorem Activation.isApplied_iff (a : Activation) : a.isApplied = true ↔ a.notice?.isSome = true := by
  obtain ⟨n, e, c, r, x⟩ := a
  cases x <;> simp [Activation.isApplied, Activation.notice?]

/-- A PENDING entry is not APPLIED. -/
theorem Activation.not_applied_of_pendingFor {a : Activation} {n : ResNo} (h : a.pendingFor n = true) :
    a.isApplied = false := by
  simp only [Activation.pendingFor, Bool.and_eq_true, decide_eq_true_eq] at h
  simp [Activation.isApplied, h.2]

/-- The first APPLIED entry is taken, and with it one of them. -/
theorem takeApplied_some {l : List Activation} {r : Message × List Activation} (h : takeApplied l = some r) :
    r.2.Sublist l ∧ (l.filter Activation.isApplied).length = (r.2.filter Activation.isApplied).length + 1 := by
  induction l generalizing r with
  | nil => simp [takeApplied] at h
  | cons a t ih =>
    have applied := a.isApplied_iff
    simp only [takeApplied] at h
    split at h
    · rename_i m hm
      obtain rfl := Option.some.inj h
      simp [applied.2 (by simp [hm])]
    · rename_i hm
      obtain ⟨x, hx, rfl⟩ := Option.map_eq_some_iff.1 h
      obtain ⟨sub, count⟩ := ih hx
      have : a.isApplied = false := by simpa [hm] using applied
      exact ⟨sub.cons_cons a, by simpa [List.filter_cons, this] using count⟩

theorem takeApplied_none {l : List Activation} (h : takeApplied l = none) : l.filter Activation.isApplied = [] := by
  induction l with
  | nil => rfl
  | cons a t ih =>
    have applied := a.isApplied_iff
    simp only [takeApplied] at h
    split at h
    · simp at h
    · rename_i hm
      have : a.isApplied = false := by simpa [hm] using applied
      rw [List.filter_cons, this]
      exact ih (by simpa using h)

/-- Marking entries APPLIED leaves no more PENDING entries for any resource. -/
theorem countP_markApplied_le (n m : ResNo) (k : Nat) (l : List Activation) :
    (markApplied n k l).countP (fun a => a.pendingFor m) ≤ l.countP fun a => a.pendingFor m := by
  rw [markApplied, List.countP_map]
  refine List.countP_mono_left fun a _ h => ?_
  simp only [Function.comp_apply] at h
  split at h
  · simp [Activation.pendingFor] at h
  · exact h

/-- Marking the entries PENDING for a resource APPLIED makes so many more notices. -/
theorem applied_markApplied (n : ResNo) (k : Nat) (l : List Activation) :
    ((markApplied n k l).filter Activation.isApplied).length =
      (l.filter Activation.isApplied).length + l.countP fun a => a.pendingFor n := by
  induction l with
  | nil => rfl
  | cons a t ih =>
    simp only [markApplied, List.map_cons] at ih ⊢
    by_cases h : a.pendingFor n = true
    · have : Activation.isApplied { a with state := .applied k } = true := rfl
      simp only [h, if_true, List.filter_cons, this, List.length_cons, ih, Activation.not_applied_of_pendingFor h,
        List.countP_cons, Bool.false_eq_true, if_false]
      omega
    · simp only [h, List.filter_cons, List.countP_cons, Bool.false_eq_true, if_false]
      split <;> simp only [List.length_cons, ih] <;> omega

/-- Dropping PENDING entries drops no notice. -/
theorem applied_dropPending (n : ResNo) (l : List Activation) :
    (dropPending n l).filter Activation.isApplied = l.filter Activation.isApplied := by
  rw [dropPending, List.filter_filter]
  refine List.filter_congr fun a _ => ?_
  by_cases h : a.pendingFor n = true
  · simp [Activation.not_applied_of_pendingFor h]
  · simp [h]

/-- Replacing a resource's PENDING entry by another of its own changes no count. -/
theorem replacePending_counts {n : ResNo} {a : Activation} (ha : a.pendingFor n = true) (l : List Activation) :
    (∀ m, (replacePending n a l).countP (fun x => x.pendingFor m) = l.countP fun x => x.pendingFor m)
      ∧ ((replacePending n a l).filter Activation.isApplied).length = (l.filter Activation.isApplied).length := by
  refine ⟨fun m => ?_, ?_⟩
  · rw [replacePending, List.countP_map]
    refine List.countP_congr fun x _ => ?_
    simp only [Function.comp_apply]
    split
    · rename_i h
      simp only [Activation.pendingFor, Bool.and_eq_true, decide_eq_true_eq] at h ha ⊢
      rw [ha.1, ha.2, h.1, h.2]
    · exact Iff.rfl
  · rw [replacePending, ← List.countP_eq_length_filter, ← List.countP_eq_length_filter, List.countP_map]
    refine List.countP_congr fun x _ => ?_
    simp only [Function.comp_apply]
    split
    · rename_i h
      simp [Activation.not_applied_of_pendingFor h, Activation.not_applied_of_pendingFor ha]
    · exact Iff.rfl

/-- A shorter activation list has no resource with two PENDING entries either. -/
theorem State.onePending.sublist {t : State} (h : s.onePending) (hl : t.activations.Sublist s.activations) :
    t.onePending := fun n => (hl.countP_le).trans (h n)

/-- The activation list replaced by one with no more PENDING entries and the same notices. -/
theorem orderly_setActivations {l : List Activation}
    (hp : ∀ n : ResNo, (l.countP fun a => a.pendingFor n) ≤ s.activations.countP fun a => a.pendingFor n)
    (ha : (l.filter Activation.isApplied).length = (s.activations.filter Activation.isApplied).length) :
    Orderly s (s.setActivations l) where
  toKept := .of_same rfl rfl fun _ => rfl
  served _ := id
  pending h n := (hp n).trans (h n)
  heldServed _ h := by
    rw [State.heldServed, State.heldNotices, State.activations_setActivations, ha]
    exact h

/-! ### Activation and the grant rule (R59, R14, R15) -/

/-- A message on port S touches no client port. -/
theorem State.served_pushSup {m : Message} {l : List Activation} {p : CPort} (h : s.served p) :
    ((s.pushMessage .sup m).setActivations l).served p :=
  h.mono id (State.room_pushMessage s _ _ m)

/-- ACTIVATED is offered: nothing but port S's queue and the activation list changes. -/
theorem State.offerActivated_eq (s : State) :
    s.offerActivated = s ∨ ∃ m l, l.Sublist s.activations
      ∧ s.offerActivated = (s.pushMessage .sup m).setActivations l := by
  simp only [State.offerActivated]
  split
  · split
    · rename_i r hr
      exact .inr ⟨r.1, r.2, (takeApplied_some hr).1, rfl⟩
    · exact .inl rfl
  · exact .inl rfl

theorem kept_offerActivated : Kept s s.offerActivated := by
  rcases s.offerActivated_eq with e | ⟨m, l, -, e⟩ <;> rw [e]
  · exact .refl
  · exact .of_same rfl rfl fun _ => rfl

theorem State.served.offerActivated {p : CPort} (h : s.served p) : s.offerActivated.served p := by
  rcases s.offerActivated_eq with e | ⟨m, l, -, e⟩ <;> rw [e]
  · exact h
  · exact State.served_pushSup h

theorem State.onePending.offerActivated (h : s.onePending) : s.offerActivated.onePending := by
  rcases s.offerActivated_eq with e | ⟨m, l, sub, e⟩ <;> rw [e]
  · exact h
  · exact h.sublist sub

/-- With at most one notice held, and that one by the activation list, offering it leaves none waiting where there is
room (R15, R122). -/
theorem State.heldServed_offerActivated
    (h : s.store.held = [] ∧ (s.activations.filter Activation.isApplied).length ≤ 1 ∨ s.supRoom = false) :
    s.offerActivated.heldServed := by
  by_cases room : s.supRoom = true
  · obtain ⟨none, le⟩ : s.store.held = [] ∧ (s.activations.filter Activation.isApplied).length ≤ 1 := by
      simpa [room] using h
    have held : s.heldNotices = (s.activations.filter Activation.isApplied).length := by
      simp [State.heldNotices, none]
    left
    simp only [State.offerActivated, room, Bool.true_and, decide_eq_true_eq]
    split
    · split
      · rename_i r hr
        have := (takeApplied_some hr).2
        simp only [State.heldNotices, State.setActivations_store, State.pushMessage_store, none,
          State.activations_setActivations, List.length_nil]
        omega
      · rename_i hr
        simp [held, takeApplied_none hr]
    · omega
  · right
    simp [State.offerActivated, room]

/-- A drained pending activation is applied (R14): one notice at most comes to be held, and is queued where there is
room. -/
theorem orderly_applyPending (n : ResNo) (image : Entry) : Orderly s (s.applyPending n image) := by
  simp only [State.applyPending]
  have recheck := ((tidy_putInForce (s := s) n image).trans (tidy_recheck n image))
  generalize (s.putInForce n image).recheck n image = u at recheck ⊢
  generalize ((s.putInForce n image).recheckEnds n image).length = count
  have mark : Kept u (u.setActivations (markApplied n count u.activations)) := .of_same rfl rfl fun _ => rfl
  have serve := tidy_serve (s := u.setActivations (markApplied n count u.activations)) n
  generalize (u.setActivations (markApplied n count u.activations)).serve n = v at serve ⊢
  have list : v.activations = markApplied n count u.activations := serve.activations
  refine ⟨(recheck.toKept.trans mark).trans (serve.toKept.trans kept_offerActivated),
    fun p h => (serve.served p (recheck.served p h)).offerActivated,
    fun one => State.onePending.offerActivated fun m => ?_, fun one h => State.heldServed_offerActivated ?_⟩
  · rw [list]
    exact (countP_markApplied_le n m count _).trans (recheck.orderly.pending one m)
  · refine (recheck.orderly.heldServed one h).imp (fun none => ?_) fun full => serve.supRoom.trans full
    have held : u.store.held = [] ∧ u.activations.filter Activation.isApplied = [] := by
      simpa [State.heldNotices] using none
    refine ⟨serve.held.trans held.1, ?_⟩
    rw [list, applied_markApplied, held.2]
    simpa using recheck.orderly.pending one n

/-- The grant rule of a resource (R59). -/
theorem orderly_grantRule (n : ResNo) : Orderly s (s.grantRule n) := by
  simp only [State.grantRule]
  split
  · split
    · split
      · exact orderly_applyPending _ _
      · exact .refl
    · exact .refl
  · exact (tidy_serve n).orderly

theorem orderly_grantRules (ns : List ResNo) : Orderly s (s.grantRules ns) :=
  Orderly.foldl (fun _ n => orderly_grantRule n) ns s

/-- A pending activation is dropped from the list (R12, R16). -/
theorem orderly_dropPending (n : ResNo) : Orderly s (s.setActivations (dropPending n s.activations)) :=
  orderly_setActivations (fun _ => List.filter_sublist.countP_le) (by rw [applied_dropPending])

/-- An activation is applied at once (R12). -/
theorem orderly_applyNow (n : ResNo) (image : Entry) : Orderly s (s.applyNow n image) :=
  ((tidy_putInForce n image).trans (tidy_recheck n image)).orderly.trans <|
    (orderly_dropPending n).trans (tidy_serve n).orderly

theorem orderly_cancelActivation (n : ResNo) : Orderly s (s.cancelActivation n) :=
  (orderly_dropPending n).trans (tidy_setRecord n _).orderly

/-- Steps 3 and 4 of R12. -/
theorem orderly_drain (n : ResNo) (a : Activation) : Orderly s (s.drain n a).1 := by
  have revoked : Orderly s (if a.revoke then s.revokeAll (s.activeHolders n) (s.entry n).fieldsD.grace else s) := by
    split
    · exact (tidy_revokeAll _ _).orderly
    · exact .refl
  simp only [State.drain]
  generalize (if a.revoke then s.revokeAll (s.activeHolders n) (s.entry n).fieldsD.grace else s) = u at revoked ⊢
  split
  · exact revoked.trans (orderly_applyNow n _)
  · exact revoked

/-! ### Ticks (R79, R49, R67) -/

theorem orderly_leaseTick : Orderly s s.leaseTick :=
  (tidy_tickSlots.trans (Tidy.foldl (fun _ i => tidy_tickSlot i) _ _)).orderly.trans (orderly_grantRules _)

theorem orderly_waitTick (order : List WaitNo) : Orderly s (s.waitTick order) :=
  (tidy_tickWaits.trans (tidy_endTimeouts _)).orderly.trans (orderly_grantRules _)

theorem orderly_upgradeTick (order : List ResNo) : Orderly s (s.upgradeTick order) :=
  (tidy_tickDeadlines.trans (Tidy.foldl (fun _ n => tidy_endUpgrade n .timeout) _ _)).orderly.trans
    (orderly_grantRules _)

/-! ### The ports (R104, R108, R109) -/

/-- An operation on the ports by which no port gains room, and on no record. -/
theorem Orderly.of_ports {t : State} (hs : t.slots = s.slots) (hw : t.waits = s.waits)
    (hd : ∀ p, (t.side p).owed = (s.side p).owed) (ha : t.activations = s.activations)
    (hh : t.store.held = s.store.held)
    (hr : ∀ p, (s.port p).room p = false → (t.port p).room p = false) : Orderly s t where
  toKept := .of_same hs hw hd
  served p h := h.mono (by rw [hd]; exact id) (hr _)
  pending h n := by rw [ha]; exact h n
  heldServed _ h := h.imp (by rw [State.heldNotices, State.heldNotices, ha, hh]; exact id) (hr .sup)

theorem orderly_setPort {p : PortId} {u : PortUnit} (h : (s.port p).room p = false → u.room p = false) :
    Orderly s (s.setPort p u) := by
  refine .of_ports rfl rfl (fun _ => rfl) rfl rfl fun q hq => ?_
  rw [State.port_setPort]
  split
  · rename_i e; subst e; exact h hq
  · exact hq

/-- The port unit keeps its queue and its reservation. -/
theorem orderly_setPort_same {p : PortId} {u : PortUnit} (hq : u.queue = (s.port p).queue)
    (hr : u.reserved = (s.port p).reserved) : Orderly s (s.setPort p u) :=
  orderly_setPort fun h => by rw [PortUnit.room_congr hq hr, h]

theorem orderly_pushMessage (p : PortId) (m : Message) : Orderly s (s.pushMessage p m) :=
  orderly_setPort (PortUnit.room_append (ms := [m]) rfl (by simp [PortUnit.taken]))

/-- A response takes the reserved entry, or a further one (R109). -/
theorem orderly_placeResponse (p : PortId) (m : Message) : Orderly s (s.placeResponse p m) := by
  have set : Orderly s (s.setPort p { s.port p with queue := (s.port p).queue ++ [m], reserved := false }) := by
    refine orderly_setPort (PortUnit.room_append (ms := [m]) rfl ?_)
    have := Bool.toNat_le (s.port p).reserved
    simp only [PortUnit.taken, List.length_append, List.length_singleton, Bool.toNat_false]
    omega
  refine set.trans (Tidy.orderly ?_)
  exact .of_same rfl rfl rfl rfl rfl rfl

theorem orderly_answer (k : Kind) (r : Request) (a : Reply) : Orderly s (s.answer k r a) := orderly_placeResponse _ _

/-- The dispatcher takes a frame and reserves an entry (R108). -/
theorem orderly_takeFrame (p : PortId) (f : Frame) : Orderly s (s.takeFrame p f) := by
  have set : Orderly s (s.setPort p { s.port p with fifo := (s.port p).fifo.tail, reserved := true }) := by
    refine orderly_setPort (PortUnit.room_append (ms := []) (List.append_nil _).symm ?_)
    have := Bool.toNat_le (s.port p).reserved
    simp only [PortUnit.taken, Bool.toNat_true]
    omega
  refine set.trans (Tidy.orderly ?_)
  exact .of_same rfl rfl rfl rfl rfl rfl

/-! ### The store's notices (R122, R123, R141) -/

theorem Store.startLaunched_held (st : Store) : st.startLaunched.held = st.held := by
  simp only [Store.startLaunched]
  split
  · split <;> rfl
  all_goals rfl

/-- The store changed in all but the notices it holds. -/
theorem tidy_setStore {st : Store} (h : st.held = s.store.held) : Tidy s (s.setStore st) :=
  .of_same rfl rfl rfl rfl rfl h

/-- A store notice is queued, or held where port S takes none (R122). -/
theorem orderly_raiseStoreNotice (m : Message) : Orderly s (s.raiseStoreNotice m) := by
  simp only [State.raiseStoreNotice]
  split
  · exact orderly_pushMessage _ _
  · rename_i h
    refine ⟨.of_same rfl rfl fun _ => rfl, fun _ => id, id, fun _ served => .inr ?_⟩
    rcases served with none | full
    · exact (by simpa [none] using h : s.supRoom = false)
    · exact full

/-- The store changed in all but the notices it holds, and a notice raised. -/
theorem orderly_setStore_raise {st : Store} (h : st.held = s.store.held) (m : Message) :
    Orderly s ((s.setStore st).raiseStoreNotice m) :=
  (tidy_setStore h).orderly.trans (orderly_raiseStoreNotice m)

theorem orderly_skipLaunched : Orderly s s.skipLaunched := by
  simp only [State.skipLaunched]
  split
  · refine orderly_setStore_raise ?_ _
    rfl
  all_goals exact .refl

theorem orderly_finishOp (op : StoreOp) (fault : Option StoreFault) (result : List Byte) :
    Orderly s (s.finishOp op fault result) := by
  simp only [State.finishOp]
  split
  · refine Orderly.trans (orderly_setStore_raise ?_ _) orderly_skipLaunched
    rfl
  · refine Orderly.trans (orderly_setStore_raise ?_ _) (tidy_setStore (Store.startLaunched_held _)).orderly
    rfl

/-- A completion event (R141). -/
theorem orderly_complete (op : StoreOp) (r : OpResult) : Orderly s (s.complete op r) := by
  refine Orderly.trans (Tidy.orderly ?_) (orderly_finishOp op r.fault r.result)
  exact .of_same rfl rfl rfl rfl rfl rfl

/-- One held notice enters port S's queue: nothing else changes but that one fewer is held (R123). -/
theorem State.deliverHeldOne_some {t : State} (h : s.deliverHeldOne = some t) :
    ∃ m st l, t = ((s.pushMessage .sup m).setStore st).setActivations l ∧ l.Sublist s.activations
      ∧ t.heldNotices + 1 = s.heldNotices := by
  simp only [State.deliverHeldOne] at h
  split at h
  · split at h
    · rename_i m rest e
      obtain rfl := Option.some.inj h
      refine ⟨m, { s.store with held := rest }.startLaunched, s.activations, rfl, List.Sublist.refl _, ?_⟩
      simp only [State.heldNotices, State.store_setStore, Store.startLaunched_held, State.setStore_activations,
        State.pushMessage_activations, e, List.length_cons]
      omega
    · rename_i e
      obtain ⟨r, hr, rfl⟩ := Option.map_eq_some_iff.1 h
      obtain ⟨sub, count⟩ := takeApplied_some hr
      refine ⟨r.1, s.store, r.2, rfl, sub, ?_⟩
      simp only [State.heldNotices, State.setActivations_store, State.pushMessage_store,
        State.activations_setActivations]
      omega
  · simp at h

/-- None enters where none is held or there is no room. -/
theorem State.deliverHeldOne_none (h : s.deliverHeldOne = none) : s.heldServed := by
  simp only [State.deliverHeldOne] at h
  split at h
  · split at h
    · simp at h
    · rename_i e
      left
      simp [State.heldNotices, e, takeApplied_none (Option.map_eq_none_iff.1 h)]
  · rename_i room
    exact .inr (by simpa using room)

theorem orderly_deliverHeld {fuel : Nat} (h : s.heldNotices ≤ fuel) :
    Kept s (State.deliverHeld fuel s) ∧ (∀ p, s.served p → (State.deliverHeld fuel s).served p)
      ∧ (s.onePending → (State.deliverHeld fuel s).onePending) ∧ (State.deliverHeld fuel s).heldServed := by
  induction fuel generalizing s with
  | zero => exact ⟨.refl, fun _ => id, id, .inl (Nat.le_zero.1 h)⟩
  | succ k ih =>
    simp only [State.deliverHeld]
    split
    · rename_i e
      exact ⟨.refl, fun _ => id, id, State.deliverHeldOne_none e⟩
    · rename_i t e
      obtain ⟨m, st, l, eq, sub, count⟩ := State.deliverHeldOne_some e
      obtain ⟨kept, served, pending, held⟩ := ih (s := t) (by omega)
      refine ⟨Kept.trans ?_ kept, fun p hp => served p ?_, fun one => pending ?_, held⟩ <;> rw [eq]
      · exact .of_same rfl rfl fun _ => rfl
      · exact State.served_pushSup (l := l) hp
      · exact one.sublist (t := ((s.pushMessage .sup m).setStore st).setActivations l) sub

/-- Delivery of port S's held notices (R123), whatever waited before. -/
theorem State.heldServed_deliverAllHeld : s.deliverAllHeld.heldServed := (orderly_deliverHeld (Nat.le_refl _)).2.2.2

theorem orderly_deliverAllHeld : Orderly s s.deliverAllHeld :=
  have ⟨kept, served, pending, held⟩ := orderly_deliverHeld (s := s) (Nat.le_refl _)
  ⟨kept, served, pending, fun _ _ => held⟩

/-! ### The transactions (R101 to R105) -/

/-- A client port's unit is replaced by any other, and what follows leaves no notice of that port waiting where there is
room for it. -/
theorem Orderly.of_setPort {p : CPort} {u : PortUnit} {t : State} (h : Orderly (s.setPort (.client p) u) t)
    (hp : t.served p) : Orderly s t := by
  have other (q : PortId) (e : q ≠ .client p) : (s.setPort (.client p) u).port q = s.port q := by
    simp [State.port_setPort, e]
  have set : Kept s (s.setPort (.client p) u) := .of_same rfl rfl fun _ => rfl
  refine ⟨set.trans h.toKept, fun q x => ?_, h.pending, fun one x => ?_⟩
  · by_cases e : q = p
    · subst e; exact hp
    · exact h.served q (x.mono id (by rw [other _ (by simpa using e)]; exact id))
  · refine h.heldServed one (x.imp id fun full => ?_)
    rw [State.supRoom, other _ (by simp)]
    exact full

/-- A port unit is replaced by any other, and the notices that wait for its room follow (R104). -/
theorem orderly_setPort_deliver (p : PortId) (u : PortUnit) : Orderly s ((s.setPort p u).deliverTo p) := by
  cases p with
  | client p => exact (tidy_deliverAllOwed p).orderly.of_setPort (State.served_deliverAllOwed p)
  | sup =>
    have set : Kept s (s.setPort .sup u) := .of_same rfl rfl fun _ => rfl
    have deliver := orderly_deliverAllHeld (s := s.setPort .sup u)
    refine ⟨set.trans deliver.toKept, fun q h => deliver.served q ?_, deliver.pending,
      fun _ _ => State.heldServed_deliverAllHeld⟩
    exact h.mono id (by rw [State.port_setPort, if_neg (by simp)]; exact id)

theorem orderly_beginTransfer (p : PortId) (k : TransKind) : Orderly s (s.beginTransfer p k) := by
  simp only [State.beginTransfer]
  split
  · exact orderly_setPort_same rfl rfl
  · exact .refl

theorem orderly_reportTransfer (p : PortId) (k : TransKind) : Orderly s (s.reportTransfer p k) := by
  obtain ⟨-, queue, reserved, -⟩ := PortUnit.report_rest (s.port p)
  simp only [State.reportTransfer]
  split
  · exact orderly_setPort_same queue reserved
  · exact .refl

theorem orderly_fixTransfer (p : PortId) (k : TransKind) : Orderly s (s.fixTransfer p k) := by
  obtain ⟨-, queue, reserved, -⟩ := PortUnit.report_rest (s.port p)
  simp only [State.fixTransfer]
  split
  · exact orderly_setPort_same queue reserved
  · exact .refl

theorem orderly_endTransfer {p : PortId} {k : TransKind} {bits : Nat} {ending : State → State}
    (h : ∀ t, Orderly t (ending t)) : Orderly s (s.endTransfer p k bits ending) := by
  simp only [State.endTransfer]
  split
  · split
    · split
      · exact (orderly_fixTransfer p k).trans (h _)
      · exact (orderly_reportTransfer p k).trans (h _)
    · exact orderly_setPort_same rfl rfl
  · exact .refl

/-- A transaction at any of its moments, with what its rising edge does. -/
theorem orderly_transact {p : PortId} {k : TransKind} {e : Edge} {bits : Nat} {ending : State → State}
    (h : ∀ t, Orderly t (ending t)) : Orderly s (s.transact p k e bits ending) := by
  cases e with
  | begins => exact orderly_beginTransfer p k
  | reports => exact orderly_reportTransfer p k
  | fixes => exact orderly_fixTransfer p k
  | ends => exact orderly_endTransfer h
  | whole =>
    simp only [State.transact]
    split
    · exact (orderly_beginTransfer p k).trans (orderly_endTransfer h)
    · exact .refl

theorem orderly_finishWrite (p : PortId) (sent : List Byte) : Orderly s (s.finishWrite p sent) := by
  have taken (u : PortUnit) (x : FrameFate) : (u.take x).queue = u.queue ∧ (u.take x).reserved = u.reserved := by
    cases x <;> exact ⟨rfl, rfl⟩
  simp only [State.finishWrite]
  split
  · exact orderly_setPort_same (taken _ _).1 (taken _ _).2
  · exact .refl

theorem orderly_finishRead (p : PortId) (bits : Nat) : Orderly s (s.finishRead p bits) := by
  simp only [State.finishRead]
  split
  · rename_i t _
    have finish : Orderly s (s.setPort p ((s.port p).finish t (readPayload t.sending) (bits / 8))) :=
      orderly_setPort_same rfl rfl
    split
    · split
      · exact finish.trans (orderly_setPort_deliver p _)
      · exact finish
    · exact finish
  · exact .refl

theorem orderly_finishPlain (p : PortId) (bits : Nat) : Orderly s (s.finishPlain p bits) := by
  simp only [State.finishPlain]
  split
  · exact orderly_setPort_same rfl rfl
  · exact .refl

/-! ### DETACH, RESET_PORT and PURGE_CLIENT (R116, R117, R132) -/

theorem State.owedOf_sublist (c : Client) : (s.owedOf c).Sublist (s.side c.port).owed := List.filter_sublist

theorem State.owed_withdraw (p : CPort) (r : Ref) : ((s.withdraw p r).side p).owed = (s.side p).owed.erase r := by
  rw [State.withdraw, State.side_dropOwed, State.owed_leaveOwed, if_pos rfl]

/-- A port whose whole owed list is withdrawn owes nothing. -/
theorem State.owed_withdrawAll {p : CPort} {refs : List Ref} (h : (s.side p).owed = refs) :
    ((s.withdrawAll p refs).side p).owed = [] := by
  induction refs generalizing s with
  | nil => exact h
  | cons r rest ih => exact ih (by rw [State.owed_withdraw, h, List.erase_cons_head])

/-- The part that DETACH and RESET_PORT share: waits end, upgrades are cleared, leases end, and the grant rules run. -/
theorem orderly_detachAll (js : List WaitNo) (ns ms : List ResNo) (ls : List SlotNo) :
    Orderly s ((((s.endWaitsQuiet js).clearUpgrades ns).endLeasesQuiet ls).grantRules ms) :=
  (((tidy_endWaitsQuiet js).trans (tidy_clearUpgrades ns)).trans (tidy_endLeasesQuiet ls)).orderly.trans
    (orderly_grantRules ms)

/-- DETACH removes notices from the queue, and delivers what is still owed at its end (R116). -/
theorem orderly_detach (c : Client) : Orderly s (s.detach c).1 := by
  simp only [State.detach]
  have withdrawn := tidy_withdrawAll (s := s.setPort (.client c.port) ((s.port (.client c.port)).dropNotices c.tag))
    (State.owedOf_sublist (s := s) c)
  exact ((withdrawn.orderly.trans (orderly_detachAll _ _ _ _)).trans (tidy_deliverAllOwed c.port).orderly).of_setPort
    (State.served_deliverAllOwed c.port)

/-- RESET_PORT empties the queue and the owed list (R117). -/
theorem orderly_resetPort (p : CPort) : Orderly s (s.resetPort p).1 := by
  simp only [State.resetPort]
  have withdrawn := tidy_withdrawAll (s := s.setPort (.client p) (s.port (.client p)).cleared)
    (List.Sublist.refl (s.side p).owed)
  have none := State.owed_withdrawAll (s := s.setPort (.client p) (s.port (.client p)).cleared) (p := p) rfl
  rw [State.setPort_side] at none
  generalize (s.setPort (.client p) (s.port (.client p)).cleared).withdrawAll p (s.side p).owed = u at withdrawn none ⊢
  exact (withdrawn.orderly.trans (orderly_detachAll _ _ _ _)).of_setPort
    ((orderly_detachAll _ _ _ _).served p (.inl none))

/-- PURGE_CLIENT (R132). -/
theorem orderly_purge (c : Client) : Orderly s (s.purge c).1 := by
  simp only [State.purge]
  refine Orderly.trans (Tidy.orderly ?_) (orderly_grantRules _)
  refine Tidy.trans (Tidy.trans (tidy_withdrawAll (State.owedOf_sublist c)) (Tidy.foldl (fun _ j => ?_) _ _))
    (Tidy.foldl (fun _ i => ?_) _ _)
  · exact tidy_endWaitPurged j
  · exact tidy_endLeasePurged i

end Sys2Proof.Machine
end

section
/-! PROOFS. Every command keeps the bookings, the owed lists, the caps of R26 and the delivery of notices. -/

namespace Sys2Proof.Machine

/-! ### The caps (R26, R47) -/

/-- No slot and no wait entry has come to count for a client, so the client stays within its caps. -/
theorem capLaw_of_kept {s t : State} (h : Kept s t) (b : s.booked) (c : capLaw s) : capLaw t := by
  intro x
  obtain ⟨hs, hw⟩ := c x
  refine ⟨le_trans (List.Sublist.length_le ?_) hs, le_trans (List.Sublist.length_le ?_) hw⟩
  · refine List.monotone_filter_right _ fun i => ?_
    simp only [Slot.countsFor_iff]
    exact h.slots b i x
  · refine List.monotone_filter_right _ fun j => ?_
    simp only [decide_eq_true_eq]
    exact h.waits j x

/-- A list without repeats grows by at most one when all but one of its elements are of another list. -/
theorem length_le_succ_of_nodup {α : Type} [DecidableEq α] {l k : List α} {a : α} (h : l.Nodup)
    (hk : ∀ x ∈ l, x ≠ a → x ∈ k) : l.length ≤ k.length + 1 := by
  have : l ⊆ a :: k := fun x hx => by
    by_cases e : x = a
    · simp [e]
    · exact List.mem_cons_of_mem _ (hk x hx e)
  simpa using (h.subperm this).length_le

theorem allSlots_nodup : allSlots.Nodup := List.nodup_finRange _

theorem allWaits_nodup : allWaits.Nodup := List.nodup_finRange _

/-- One slot has come to count for a client that had fewer than 16. -/
theorem slotCount_le_of_one {s t : State} {i : SlotNo} {c : Client}
    (h : ∀ k x, k ≠ i ∨ x ≠ c → (t.slot k).body.occupant? = some x → (s.slot k).body.occupant? = some x)
    (hc : s.slotCount c < Config.slotCap) (hs : ∀ x, s.slotCount x ≤ Config.slotCap) (x : Client) :
    t.slotCount x ≤ Config.slotCap := by
  by_cases e : x = c
  · subst e
    refine le_trans (length_le_succ_of_nodup (a := i) (k := allSlots.filter fun i => (s.slot i).countsFor x)
      (allSlots_nodup.filter _) fun k hk hi => ?_) hc
    simp only [List.mem_filter, Slot.countsFor_iff] at hk ⊢
    exact ⟨hk.1, h k x (.inl hi) hk.2⟩
  · refine le_trans (List.Sublist.length_le (List.monotone_filter_right _ fun k => ?_)) (hs x)
    simp only [Slot.countsFor_iff]
    exact h k x (.inr e)

/-- One wait entry has come to count for a client that had fewer than two. -/
theorem waitsOf_le_of_one {s t : State} {j : WaitNo} {c : Client}
    (h : ∀ k x, k ≠ j ∨ x ≠ c → (t.wait k).waiter? = some x → (s.wait k).waiter? = some x)
    (hc : (s.waitsOf c).length < Config.waitCap) (hs : ∀ x, (s.waitsOf x).length ≤ Config.waitCap) (x : Client) :
    (t.waitsOf x).length ≤ Config.waitCap := by
  by_cases e : x = c
  · subst e
    refine le_trans (length_le_succ_of_nodup (a := j) (k := s.waitsOf x) (allWaits_nodup.filter _)
      fun k hk hj => ?_) hc
    simp only [State.waitsOf, List.mem_filter, decide_eq_true_eq] at hk ⊢
    exact ⟨hk.1, h k x (.inl hj) hk.2⟩
  · refine le_trans (List.Sublist.length_le (List.monotone_filter_right _ fun k => ?_)) (hs x)
    simp only [decide_eq_true_eq]
    exact h k x (.inr e)

/-! ### What an event keeps -/

/-- What every event keeps: the bookings and the owed lists, the caps, and the delivery of notices. -/
structure Event (s t : State) : Prop where
  booked : s.booked → t.booked
  owed : s.booked → owedLaw s → owedLaw t
  cap : s.booked → capLaw s → capLaw t
  delivery : activationLaw s → deliveryLaw s → t.onePending ∧ deliveryLaw t

theorem Orderly.event {s t : State} (h : Orderly s t) : Event s t where
  booked := h.booked
  owed := h.owed
  cap := capLaw_of_kept h.toKept
  delivery a d :=
    have one := onePending_of_activationLaw a
    ⟨h.pending one, fun p => h.served p (d.1 p), h.heldServed one d.2⟩

theorem Event.refl {s : State} : Event s s := Orderly.refl.event

theorem Event.orderly {s t u : State} (h : Event s t) (k : Orderly t u) : Event s u where
  booked b := k.booked (h.booked b)
  owed b o := k.owed (h.booked b) (h.owed b o)
  cap b c := capLaw_of_kept k.toKept (h.booked b) (h.cap b c)
  delivery a d :=
    have ⟨one, served, held⟩ := h.delivery a d
    ⟨k.pending one, fun p => k.served p (served p), k.heldServed one held⟩

/-- Nothing is occupied, owed, listed or held, as a start-up leaves it (R149). -/
theorem Event.of_empty {s t : State} (hs : ∀ i, (t.slot i).body = .free) (hw : ∀ j, t.wait j = .free)
    (ho : ∀ p, (t.side p).owed = []) (ha : t.activations = []) (hh : t.store.held = []) : Event s t where
  booked _ := ⟨fun j w r i h => by simp [hw j] at h, fun j k i h => by simp [hw j, WaitEntry.reserves] at h⟩
  owed _ _ := by
    refine ⟨fun p => ⟨by simp [ho p], fun r => ?_⟩, fun i l g c h => by simp [hs i] at h⟩
    cases r with
    | slot i => simp [ho p, State.owesOn_slot, hs i]
    | wait j => simp [ho p, State.owesOn_wait, hw j]
  cap _ _ c := by
    have slots : t.slotCount c = 0 := by simp [State.slotCount, Slot.countsFor, hs]
    have waits : t.waitsOf c = [] := by simp [State.waitsOf, hw, WaitEntry.queued?]
    simp [slots, waits]
  delivery _ _ := by
    refine ⟨fun n => by simp [ha], fun p => .inl (ho p), .inl ?_⟩
    simp [State.heldNotices, ha, hh]

/-! ### Supply, RESET# and start-up (R148, R149, R154) -/

variable {s : State}

theorem event_startUpBegin (u : State) : Event s u.startUpBegin := by
  refine .of_empty (fun i => ?_) (fun j => ?_) (fun p => ?_) rfl rfl
  · simp [State.slot, State.startUpBegin, Vector.get_eq_getElem, Slot.initial]
  · simp [State.wait, State.startUpBegin, Vector.get_eq_getElem]
  · simp only [State.side, State.startUpBegin, vmap_get]

theorem orderly_setPolicy (p : CPort) (x : Policy) : Orderly s (s.setSide p { s.side p with policy := x }) := by
  refine .of_ports rfl rfl (fun q => ?_) rfl rfl fun _ => id
  rw [State.side_setSide]
  split
  · rename_i e; rw [e]
  · rfl

/-- A port unit keeps its queue and its reservation when every unit is changed alike. -/
theorem orderly_vmapPorts {f : PortUnit → PortUnit} {t : State}
    (hf : ∀ u, (f u).queue = u.queue ∧ (f u).reserved = u.reserved) (hp : t.ports = vmap f s.ports)
    (hs : t.slots = s.slots) (hw : t.waits = s.waits) (hd : t.sides = s.sides)
    (ha : t.activations = s.activations) (hh : t.store.held = s.store.held) : Orderly s t := by
  refine .of_ports hs hw (fun p => by rw [State.side, State.side, hd]) ha hh fun p h => ?_
  rw [State.port, hp, vmap_get, PortUnit.room_congr (hf _).1 (hf _).2]
  exact h

theorem orderly_load (r : StartResult) : Orderly s (s.load r) := by
  simp only [State.load]
  refine Orderly.trans (Orderly.trans ?_ (Orderly.foldl (fun _ p => orderly_setPolicy p _) _ _))
    (orderly_pushMessage _ _)
  exact orderly_vmapPorts (f := fun u => { u with restarted := true }) (fun _ => ⟨rfl, rfl⟩) rfl rfl rfl rfl rfl rfl

/-! ### ACQUIRE (R37, R38, R41, R42) -/

theorem State.free_of_freeSlot {i : SlotNo} (h : s.freeSlot? = some i) : (s.slot i).body = .free := by
  simpa using List.find?_some h

theorem State.free_of_freeWait {j : WaitNo} (h : s.freeWait? = some j) : s.wait j = .free := by
  simpa using List.find?_some h

/-- An ACQUIRE that passes the checks of R37 is of a client with fewer than 16 slots. -/
theorem State.slotCount_of_acquireRefusal {c : Client} {n : ResNo} {m : Mode} (h : s.acquireRefusal c n m = none) :
    s.slotCount c < Config.slotCap := by
  simp only [State.acquireRefusal] at h
  split at h
  · simp at h
  · simp at h
  · grind

theorem State.waitsOf_of_waitRefusal {c : Client} {n : ResNo} {limit : Nat} (h : s.waitRefusal c n limit = none) :
    (s.waitsOf c).length < Config.waitCap := by
  simp only [State.waitRefusal] at h
  grind

/-- A FREE slot takes a body that owes nothing and counts for a client with fewer than 16 slots. -/
theorem event_takeSlot {i : SlotNo} {v : Slot} {c : Client} (hf : (s.slot i).body = .free)
    (hv : ∀ p, ¬ v.body.owesTo p) (he : v.body.settled) (ho : v.body.occupant? = some c)
    (hc : s.slotCount c < Config.slotCap) : Event s (s.setSlot i v) where
  booked b := b.setSlot fun w h => by rw [hf] at h; exact h.elim
  owed _ o := o.same (State.owesOn_setSlot_silent (by simp [hf]) hv) (fun _ => rfl) (State.settled_setSlot o.2 he)
  cap _ cap x := by
    refine ⟨slotCount_le_of_one (i := i) (c := c) (fun k y hk hy => ?_) hc (fun y => (cap y).1) x, (cap x).2⟩
    rw [State.slot_setSlot] at hy
    split at hy
    · rw [ho] at hy
      exact (hk.elim (· ‹k = i›) (· (Option.some.inj hy).symm)).elim
    · exact hy
  delivery a d := ⟨onePending_of_activationLaw a, d⟩

/-- No QUEUED entry names a FREE slot (R46). -/
theorem State.booked.unnamed (b : s.booked) {i : SlotNo} (hf : (s.slot i).body = .free) (k : WaitNo) :
    (s.wait k).reserves ≠ some i := by
  intro h
  cases e : s.wait k with
  | queued w l x =>
    obtain rfl : x = i := by simpa [e, WaitEntry.reserves] using h
    have := b.1 k w l x e
    rw [hf] at this
    exact this
  | _ => simp [e, WaitEntry.reserves] at h

/-- An entry becomes QUEUED on a slot that is RESERVED for it and that no other entry names (R46). -/
theorem State.booked.book (b : s.booked) {i : SlotNo} {j : WaitNo} {w : Wait} {limit : Limit}
    (hr : (s.slot i).body.reservedFor w) (hn : ∀ k, (s.wait k).reserves ≠ some i) :
    (s.setWait j (.queued w limit i)).booked := by
  have other {k : WaitNo} (hk : k ≠ j) : (s.setWait j (.queued w limit i)).wait k = s.wait k := by
    rw [State.wait_setWait, if_neg hk]
  have self : ((s.setWait j (.queued w limit i)).wait j).reserves = some i := by
    rw [State.wait_setWait, if_pos rfl]; rfl
  refine ⟨fun k w' l x h => ?_, fun k k' x h h' => ?_⟩
  · by_cases hk : k = j
    · subst hk
      rw [State.wait_setWait, if_pos rfl] at h
      obtain ⟨rfl, -, rfl⟩ := WaitEntry.queued.inj h
      exact hr
    · exact b.1 k w' l x (other hk ▸ h)
  · by_cases hk : k = j <;> by_cases hk' : k' = j
    · rw [hk, hk']
    · subst hk
      obtain rfl := Option.some.inj (self.symm.trans h)
      exact absurd (other hk' ▸ h') (hn k')
    · subst hk'
      obtain rfl := Option.some.inj (self.symm.trans h')
      exact absurd (other hk ▸ h) (hn k)
    · exact b.2 k k' x (other hk ▸ h) (other hk' ▸ h')

/-- A FREE slot and a FREE wait entry become a waiting acquisition of a client within its caps (R42, R46). -/
theorem event_book {i : SlotNo} {j : WaitNo} {v : Slot} {w : Wait} {limit : Limit} (hf : (s.slot i).body = .free)
    (hj : s.wait j = .free) (hr : v.body.reservedFor w) (he : v.body.settled)
    (hc : s.slotCount w.client < Config.slotCap) (hw : (s.waitsOf w.client).length < Config.waitCap) :
    Event s ((s.setSlot i v).setWait j (.queued w limit i)) := by
  have take : Event s (s.setSlot i v) :=
    event_takeSlot hf (SlotBody.not_owesTo_of_reservedFor hr) he (SlotBody.occupant_of_reservedFor hr) hc
  refine ⟨fun b => ?_, fun b o => ?_, fun b cap x => ⟨(take.cap b cap x).1, ?_⟩, take.delivery⟩
  · exact (take.booked b).book (by rw [State.slot_setSlot, if_pos rfl]; exact hr) (b.unnamed hf)
  · exact (take.owed b o).same (State.owesOn_setWait_silent (by simp [hj]) (by simp)) (fun _ => rfl) (take.owed b o).2
  · refine waitsOf_le_of_one (j := j) (c := w.client) (fun k y hk hy => ?_) hw (fun y => (cap y).2) x
    rw [State.wait_setWait] at hy
    split at hy
    · exact (hk.elim (· ‹k = j›) (· (Option.some.inj hy).symm)).elim
    · exact hy

theorem event_acquireGrant {c : Client} {n : ResNo} {i : SlotNo} (m : Mode) (term : Nat)
    (hf : (s.slot i).body = .free) (hc : s.slotCount c < Config.slotCap) :
    Event s (s.acquireGrant c n m term i).1 := by
  obtain ⟨silent, settled, counts⟩ := s.grantedSlot_body i n c m term
  have take := event_takeSlot hf silent settled counts hc
  refine (take.orderly (Tidy.orderly ?_)).orderly (tidy_exhaust n).orderly
  exact .of_same rfl rfl rfl rfl rfl rfl

theorem event_acquireQueue {c : Client} {n : ResNo} {i : SlotNo} {j : WaitNo} (m : Mode) (term limit : Nat) (rid : Byte)
    (hf : (s.slot i).body = .free) (hj : s.wait j = .free) (hc : s.slotCount c < Config.slotCap)
    (hw : (s.waitsOf c).length < Config.waitCap) : Event s (s.acquireQueue c n m term limit rid i j).1 := by
  have book := event_book (w := { client := c, resource := n, mode := m, rid := rid }) (limit := limitOf limit)
    (v := { s.slot i with body := .reserved { resource := n, client := c, mode := m, term := term } }) hf hj
    ⟨rfl, rfl, rfl⟩ (by simp) hc hw
  exact book.orderly (tidy_setRecord n _).orderly

/-- ACQUIRE takes a slot of a client with fewer than 16, and a wait entry of one with fewer than two (R37, R38). -/
theorem event_acquire (c : Client) (f : Frame) : Event s (acquireDecision c f s).1 := by
  simp only [acquireDecision]
  split
  · exact .refl
  · split
    · exact .refl
    · split
      · exact .refl
      · rename_i hr
        have slots := State.slotCount_of_acquireRefusal hr
        simp only [State.acquirePlace]
        split
        · exact .refl
        · rename_i hi
          split
          · exact event_acquireGrant _ _ (State.free_of_freeSlot hi) slots
          · split
            · exact .refl
            · rename_i hw
              split
              · exact .refl
              · rename_i hj
                exact event_acquireQueue _ _ _ _ (State.free_of_freeSlot hi) (State.free_of_freeWait hj) slots
                  (State.waitsOf_of_waitRefusal hw)

/-! ### The other client requests -/

/-- A client request keeps what an event keeps when its decision does. -/
theorem event_clientRequest {k : Kind} {d : Client → Frame → State → Decision} (h : ∀ c f, Event s (d c f s).1) :
    Event s (s.clientRequest k d) := by
  rcases State.clientRequest_cases (s := s) (k := k) d with e | ⟨p, f, a, -, -, e⟩ | ⟨p, f, t, -, -, -, e⟩ <;> rw [e]
  · exact .refl
  · exact (orderly_answer _ _ _).event
  · exact (h _ f).orderly (orderly_answer _ _ _)

/-- A request that carries a handle, whatever it does with an accepted one. -/
theorem event_withHandle {c : Client} {f : Frame} {before : Option Status} {d : SlotNo → Lease → Decision}
    (h : ∀ i l, (s.slot i).body.live? = some l → Orderly s (d i l).1) : Event s (s.withHandle c f before d).1 := by
  simp only [State.withHandle]
  split
  · exact .refl
  · split
    · exact .refl
    · split
      · exact .refl
      · rename_i l hl
        split
        · simp only [State.accept] at hl
          split at hl
          · exact (h _ l hl).event
          · simp at hl
        · exact .refl

theorem event_cancelWait (c : Client) (f : Frame) : Event s (cancelWaitDecision c f s).1 := by
  simp only [cancelWaitDecision]
  split
  · exact ((tidy_endWaitQuiet _).orderly.trans (orderly_grantRule _)).event
  · exact .refl

theorem event_release (c : Client) (f : Frame) : Event s (releaseDecision c f s).1 :=
  event_withHandle fun _ _ _ => (tidy_endLeaseQuiet _).orderly.trans (orderly_grantRule _)

/-- A renewal withdraws an owed EXPIRY_WARNING and replaces the term (R82). -/
theorem tidy_renewSlot {i : SlotNo} {l : Lease} (h : (s.slot i).body.live? = some l) (term : Nat) :
    Tidy s (s.renewSlot i l term) := by
  have withdrawn : Tidy s (if l.owed = some .expiryWarning then s.withdraw l.client.port (.slot i) else s) := by
    split
    · rename_i ho
      refine tidy_withdraw fun o => ((o.1 _).2 _).2 ?_
      rw [State.owesOn_slot, SlotBody.owesTo_of_lease (SlotBody.lease_of_live h)]
      simp [ho]
    · exact .refl
  exact withdrawn.trans (tidy_setBody (SlotBody.alike_mapLease _ (fun _ => rfl) fun _ => rfl))

theorem event_renew (c : Client) (f : Frame) : Event s (renewDecision c f s).1 := by
  refine event_withHandle fun i l h => ?_
  split
  · exact .refl
  · exact (tidy_renewSlot h _).orderly

/-- A live slot's upgrade becomes pending (R66). -/
theorem tidy_recordUpgrade {i : SlotNo} {l : Lease} (h : (s.slot i).body.live? = some l) (limit : Nat) :
    Tidy s (s.recordUpgrade i l limit) :=
  (tidy_setRecord l.resource _).trans (tidy_setBody (SlotBody.alike_of_live (l := l) (x := l) h rfl rfl rfl))

theorem event_upgrade (c : Client) (f : Frame) : Event s (upgradeDecision c f s).1 := by
  refine event_withHandle fun i l h => ?_
  split
  · exact .refl
  · dsimp only
    split
    · exact ((tidy_upgradeSlot i _).trans (tidy_exhaust _)).orderly
    · split
      · exact .refl
      · exact (tidy_recordUpgrade h _).orderly

theorem event_cancelUpgrade (c : Client) (f : Frame) : Event s (cancelUpgradeDecision c f s).1 := by
  refine event_withHandle fun i l _ => ?_
  split
  · exact (tidy_clearUpgrade _).orderly.trans (orderly_grantRule _)
  · exact .refl

theorem tidy_downgradeSlot (i : SlotNo) : Tidy s (s.downgradeSlot i) :=
  tidy_setBody (SlotBody.alike_mapLease _ (fun _ => rfl) fun _ => rfl)

theorem event_downgrade (c : Client) (f : Frame) : Event s (downgradeDecision c f s).1 := by
  refine event_withHandle fun i l _ => ?_
  split
  · exact .refl
  · exact (tidy_downgradeSlot i).orderly.trans (orderly_grantRule _)

theorem state_verify (c : Client) (f : Frame) : (verifyDecision c f s).1 = s := by
  simp only [verifyDecision]
  split <;> rfl

theorem state_queryLease (c : Client) (f : Frame) : (queryLeaseDecision c f s).1 = s := by
  simp only [queryLeaseDecision]
  split
  · rfl
  · split <;> rfl

/-- A decision that leaves the state as it is. -/
theorem Event.of_eq {t : State} (h : t = s) : Event s t := h ▸ .refl

/-! ### The supervisor's requests -/

theorem event_supRequest {k : Kind} {d : Frame → State → Decision} (h : ∀ f, Event s (d f s).1) :
    Event s (s.supRequest k d) := by
  rcases State.supRequest_cases (s := s) (k := k) d with e | ⟨f, a, -, -, e⟩ | ⟨f, -, -, e⟩ <;> rw [e]
  · exact .refl
  · exact (orderly_answer _ _ _).event
  · exact (h f).orderly (orderly_answer _ _ _)

theorem event_stageRequest {code : Byte} {len : Nat} {judge : Frame → State → Judged} :
    Event s (s.stageRequest code len judge) := by
  have staged (j : Judged) : Orderly s (s.stageCommand j).1 := by
    simp only [State.stageCommand]
    split
    · exact .refl
    · exact .refl
    · split
      · exact .refl
      · exact (tidy_setStore (by rfl)).orderly
  rcases State.stageRequest_cases (s := s) code len judge with e | ⟨f, a, -, -, e⟩ | ⟨f, -, -, e⟩ <;> rw [e]
  · exact .refl
  · exact (orderly_answer _ _ _).event
  · exact ((staged _).trans (orderly_answer _ _ _)).event

theorem orderly_revokeOne (i : SlotNo) (n : ResNo) (g : Nat) : Orderly s (s.revokeOne i n g) := by
  simp only [State.revokeOne]
  split
  · exact (tidy_revokeSlot i g).orderly.trans (orderly_grantRule n)
  · exact (tidy_revokeSlot i g).orderly

theorem event_revoke (f : Frame) : Event s (revokeDecision f s).1 := by
  simp only [revokeDecision]
  split
  · split
    · exact .refl
    · split
      · exact .refl
      · exact (orderly_revokeOne _ _ _).event
  · exact .refl

theorem event_revokeResource (f : Frame) : Event s (revokeResourceDecision f s).1 := by
  simp only [revokeResourceDecision]
  split
  · exact .refl
  · simp only [State.revokeHolders]
    split
    · exact ((tidy_revokeAll _ _).orderly.trans (orderly_grantRule _)).event
    · exact (tidy_revokeAll _ _).orderly.event

theorem event_purgeClient (f : Frame) : Event s (purgeClientDecision f s).1 := by
  simp only [purgeClientDecision]
  split
  · exact (orderly_purge _).event
  · exact .refl

theorem tidy_setTimebase (k : Nat) (r : RunState) : Tidy s (s.setTimebase k r) := .of_same rfl rfl rfl rfl rfl rfl

theorem event_setTimebase (f : Frame) : Event s (setTimebaseDecision f s).1 := by
  simp only [setTimebaseDecision]
  split
  · exact .refl
  · split
    · exact (tidy_setTimebase _ _).orderly.event
    · exact .refl

theorem tidy_setEntry (n : ResNo) (e : Entry) : Tidy s (s.setEntry n e) := .of_same rfl rfl rfl rfl rfl rfl

/-- An activation is recorded for a resource whose mark is NO, and so has no PENDING entry (R8, R12). -/
theorem event_recordActivation {n : ResNo} {a : Activation} (ha : a.pendingFor n = true)
    (hm : (s.record n).activationPending = false) : Event s (s.recordActivation n a) := by
  have kept : Kept s (s.recordActivation n a) := .of_same rfl rfl fun _ => rfl
  have none : [a].filter Activation.isApplied = [] := by simp [Activation.not_applied_of_pendingFor ha]
  refine ⟨kept.booked, kept.owed, capLaw_of_kept kept, fun law d => ⟨fun m => ?_, d.1, ?_⟩⟩
  · have count := law.2 m
    simp only [State.recordActivation, State.setRecord_activations, State.activations_setActivations,
      List.countP_append, List.countP_singleton]
    by_cases e : a.pendingFor m = true
    · obtain rfl : n = m := by
        simp only [Activation.pendingFor, Bool.and_eq_true, decide_eq_true_eq] at ha e
        exact ha.1.symm.trans e.1
      simp [count, hm, e]
    · simpa [e, count] using Bool.toNat_le _
  · refine Or.imp (fun h => ?_) id d.2
    simpa [State.heldNotices, State.recordActivation, none, List.filter_append] using h

theorem event_activateImage {n : ResNo} {a : Activation} (ha : a.pendingFor n = true) :
    Event s (s.activate n a).1 := by
  have counts := replacePending_counts ha s.activations
  have replace : Orderly s (s.setActivations (replacePending n a s.activations)) :=
    orderly_setActivations (fun m => (counts.1 m).le) counts.2
  simp only [State.activate]
  split
  · split
    · exact (replace.trans (orderly_drain n a)).event
    · exact replace.event
  · rename_i hm
    split
    · exact (tidy_setEntry _ _).orderly.event
    · split
      · exact .refl
      · exact ((event_recordActivation ha (by simpa using hm)).orderly (tidy_endUpgrade n _).orderly).orderly
          (orderly_drain n a)

theorem event_activate (f : Frame) : Event s (activateDecision f s).1 := by
  simp only [activateDecision]
  split
  · exact .refl
  · split
    · exact .refl
    · exact event_activateImage (by simp [State.capture, Activation.pendingFor])

theorem event_cancelActivation (f : Frame) : Event s (cancelActivationDecision f s).1 := by
  simp only [cancelActivationDecision]
  split
  · exact ((orderly_cancelActivation _).trans (orderly_grantRule _)).event
  · exact .refl

theorem event_storeLaunch (f : Frame) : Event s (storeLaunchDecision f s).1 := by
  simp only [storeLaunchDecision]
  split
  · exact .refl
  · split
    · exact .refl
    · exact .refl
    · split <;> exact (tidy_setStore (by rfl)).orderly.event

theorem event_storeDiscard (f : Frame) : Event s (storeDiscardDecision f s).1 := by
  simp only [storeDiscardDecision]
  split
  · exact .refl
  · exact .refl
  · exact (tidy_setStore (by rfl)).orderly.event

theorem event_storeRead (f : Frame) : Event s (storeReadDecision f s).1 := by
  simp only [storeReadDecision]
  split <;> exact .refl

theorem event_readLease (f : Frame) : Event s (readLeaseDecision f s).1 := by
  simp only [readLeaseDecision]
  split <;> exact .refl

theorem event_readQueue (f : Frame) : Event s (readQueueDecision f s).1 := by
  simp only [readQueueDecision]
  split <;> exact .refl

theorem event_readWait (f : Frame) : Event s (readWaitDecision f s).1 := by
  simp only [readWaitDecision]
  split <;> exact .refl

end Sys2Proof.Machine
end

section
/-! PROOFS. The laws of the owed lists, of delivery and of the caps are kept by every step. -/

namespace Sys2Proof.Machine

variable {s : State}

/-- Where a command has a next state, it is reached by an event that keeps what every event keeps. -/
def EventTo (s : State) (o : Host.Outcome State Fault Refusal) : Prop := ∀ t : State, o = .next t → Event s t

theorem eventTo_next {t : State} (h : Event s t) : EventTo s (.next t) := by
  rintro u e
  obtain rfl := Host.Outcome.next.inj e
  exact h

theorem eventTo_self : EventTo s (.next s) := eventTo_next .refl

theorem Orderly.eventTo {t : State} (h : Orderly s t) : EventTo s (.next t) := eventTo_next h.event

/-- A row that acts only where its condition holds (log 12). -/
theorem eventTo_ite {c : Prop} [Decidable c] {t : State} (h : Orderly s t) :
    EventTo s (.next (if c then t else s)) := by
  split
  · exact h.eventTo
  · exact eventTo_self

/-- Fields outside the tables, the ports, the activation list and the held notices. -/
theorem orderly_of_same {t : State} (hs : t.slots = s.slots) (hw : t.waits = s.waits) (hd : t.sides = s.sides)
    (hp : t.ports = s.ports) (ha : t.activations = s.activations) (hh : t.store.held = s.store.held) : Orderly s t :=
  (Tidy.of_same hs hw hd hp ha hh).orderly

/-! ### Supply, RESET# and start-up -/

theorem eventTo_powerOn : EventTo s (execPowerOn s) := by
  simp only [execPowerOn]
  split
  · exact eventTo_self
  · refine eventTo_next ?_
    split
    · exact Orderly.event (orderly_of_same rfl rfl rfl rfl rfl rfl)
    · exact event_startUpBegin _

theorem eventTo_resetAssert (done : Quirks) : EventTo s (execResetAssert done s) := by
  simp only [execResetAssert]
  split
  · exact eventTo_self
  · refine Orderly.eventTo ?_
    exact orderly_vmapPorts (f := fun u => { u with transfer := none }) (fun _ => ⟨rfl, rfl⟩) rfl rfl rfl rfl rfl rfl

theorem eventTo_resetRelease : EventTo s (execResetRelease s) := by
  simp only [execResetRelease]
  split
  · refine eventTo_next ?_
    split
    · exact event_startUpBegin _
    · exact Orderly.event (orderly_of_same rfl rfl rfl rfl rfl rfl)
  · exact eventTo_self

theorem eventTo_powerLoss (done : Quirks) : EventTo s (execPowerLoss done s) := by
  simp only [execPowerLoss]
  split
  · refine eventTo_next (.of_empty (fun i => ?_) (fun j => ?_) (fun p => ?_) rfl rfl)
    · exact congrArg Slot.body (State.reset_slot i)
    · exact State.reset_wait j
    · exact congrArg ClientSide.owed (State.reset_side p)
  · exact eventTo_self

theorem eventTo_restart (done : Quirks) : EventTo s (execRestart done s) := by
  refine eventTo_next ?_
  split
  · split
    · split
      · split
        · exact event_startUpBegin _
        · exact (orderly_answer _ _ _).event
      · exact .refl
    · exact .refl
    · exact .refl
  · exact .refl

/-! ### Requests of unknown kind, and the dispatcher -/

theorem eventTo_unknownRequestKind : EventTo s (execUnknownRequestKind s) := by
  simp only [execUnknownRequestKind]
  split
  · exact eventTo_self
  · split
    · exact (orderly_placeResponse _ _).eventTo
    · exact eventTo_self

theorem eventTo_dispatch : EventTo s (execDispatch s) := by
  simp only [execDispatch]
  split
  · split
    · split
      · exact (orderly_takeFrame _ _).eventTo
      · exact eventTo_self
    · exact eventTo_self
  · exact eventTo_self

/-! ### Ticks, what they end, and the grant rule's parts -/

theorem orderly_count (periods : Nat) : Orderly s (s.count periods) := orderly_of_same rfl rfl rfl rfl rfl rfl

theorem eventTo_leaseTableTick : EventTo s (execLeaseTableTick s) :=
  eventTo_ite <| Orderly.trans (t := { s with leaseTicks := s.leaseTicks - 1 })
    (orderly_of_same rfl rfl rfl rfl rfl rfl) orderly_leaseTick

theorem eventTo_waitPoolTick (order : List WaitNo) : EventTo s (execWaitPoolTick order s) :=
  eventTo_ite <| Orderly.trans (t := { s with waitTicks := s.waitTicks - 1 })
    (orderly_of_same rfl rfl rfl rfl rfl rfl) (orderly_waitTick order)

theorem eventTo_pendingUpgradesTick (order : List ResNo) : EventTo s (execPendingUpgradesTick order s) :=
  eventTo_ite <| Orderly.trans (t := { s with upgradeTicks := s.upgradeTicks - 1 })
    (orderly_of_same rfl rfl rfl rfl rfl rfl) (orderly_upgradeTick order)

/-- A lease end and the grant rule after it (R32). -/
theorem orderly_endLease_grant (cause : EndCause) (i : SlotNo) (n : ResNo) :
    Orderly s ((s.endLease cause i).grantRule n) := (tidy_endLease cause i).orderly.trans (orderly_grantRule n)

theorem eventTo_leaseExpiry (i : SlotNo) : EventTo s (execLeaseExpiry i s) := by
  simp only [execLeaseExpiry]
  split
  · exact eventTo_self
  · split
    · exact (orderly_endLease_grant _ i _).eventTo
    · exact eventTo_self

theorem eventTo_graceEnd (i : SlotNo) : EventTo s (execGraceEnd i s) := by
  simp only [execGraceEnd]
  split
  · exact eventTo_self
  · split
    · exact (orderly_endLease_grant _ i _).eventTo
    · exact eventTo_self

theorem eventTo_waitTimeout (j : WaitNo) : EventTo s (execWaitTimeout j s) := by
  simp only [execWaitTimeout]
  split
  · exact eventTo_self
  · split
    · exact ((tidy_endWait _ j).orderly.trans (orderly_grantRule _)).eventTo
    · exact eventTo_self

theorem eventTo_upgradeTimeout (n : ResNo) : EventTo s (execUpgradeTimeout n s) := by
  simp only [execUpgradeTimeout]
  split
  · exact ((tidy_endUpgrade n _).orderly.trans (orderly_grantRule n)).eventTo
  · exact eventTo_self

theorem eventTo_grantFromQueue (n : ResNo) : EventTo s (execGrantFromQueue n s) := by
  refine eventTo_ite ?_
  cases h : s.grantHead? n with
  | none => exact .refl
  | some t => exact (tidy_grantHead h).orderly

theorem eventTo_activationApplication (n : ResNo) : EventTo s (execActivationApplication n s) := by
  simp only [execActivationApplication]
  split
  · split
    · exact (orderly_applyPending _ _).eventTo
    · exact eventTo_self
  · exact eventTo_self

/-! ### Completions of store operations -/

theorem eventTo_programEntryComplete (phys : Quirks) : EventTo s (execProgramEntryComplete phys s) := by
  simp only [execProgramEntryComplete]
  split
  · exact (orderly_complete _ _).eventTo
  · exact eventTo_self

theorem eventTo_erasePageComplete (phys : Quirks) : EventTo s (execErasePageComplete phys s) := by
  simp only [execErasePageComplete]
  split
  · exact (orderly_complete _ _).eventTo
  · exact eventTo_self

theorem eventTo_eraseDirectoryComplete (phys : Quirks) : EventTo s (execEraseDirectoryComplete phys s) := by
  simp only [execEraseDirectoryComplete]
  split
  · exact (orderly_complete _ _).eventTo
  · exact eventTo_self

theorem eventTo_blankCheckComplete : EventTo s (execBlankCheckComplete s) := by
  simp only [execBlankCheckComplete]
  split
  · exact (orderly_complete _ _).eventTo
  · exact eventTo_self

theorem eventTo_scanCrcComplete : EventTo s (execScanCrcComplete s) := by
  simp only [execScanCrcComplete]
  split
  · exact (orderly_complete _ _).eventTo
  · exact eventTo_self

theorem eventTo_writeSettingsComplete (phys : Quirks) : EventTo s (execWriteSettingsComplete phys s) := by
  simp only [execWriteSettingsComplete]
  split
  · exact (orderly_complete _ _).eventTo
  · exact eventTo_self

theorem eventTo_initHeaderComplete (phys : Quirks) : EventTo s (execInitHeaderComplete phys s) := by
  simp only [execInitHeaderComplete]
  split
  · refine eventTo_next ?_
    split
    · exact event_startUpBegin _
    · exact (orderly_complete _ _).event
  · exact eventTo_self

/-! ### Every command -/

theorem eventTo_client {k : Kind} {d : Client → Frame → State → Decision} (h : ∀ c f, Event s (d c f s).1) :
    EventTo s (.next (s.clientRequest k d)) := eventTo_next (event_clientRequest h)

theorem eventTo_sup {k : Kind} {d : Frame → State → Decision} (h : ∀ f, Event s (d f s).1) :
    EventTo s (.next (s.supRequest k d)) := eventTo_next (event_supRequest h)

/-- Every command keeps what an event keeps. -/
theorem eventTo_exec (c : Instr) (s : State) : EventTo s (exec c s) := by
  cases c with
  | powerOn => exact eventTo_powerOn
  | resetAssert done => exact eventTo_resetAssert done
  | resetRelease => exact eventTo_resetRelease
  | powerLoss done => exact eventTo_powerLoss done
  | startUpComplete run => exact eventTo_ite (orderly_load _)
  | writeTransaction p e sent => exact (orderly_transact fun _ => orderly_finishWrite p sent).eventTo
  | readTransaction p e bits => exact (orderly_transact fun _ => orderly_finishRead p bits).eventTo
  | statusTransaction p e bits => exact (orderly_transact fun _ => orderly_finishPlain p bits).eventTo
  | unknownKindTransaction p e kind bits => exact (orderly_transact fun _ => orderly_finishPlain p bits).eventTo
  | unknownRequestKind => exact eventTo_unknownRequestKind
  | acquire => exact eventTo_client event_acquire
  | cancelWait => exact eventTo_client event_cancelWait
  | release => exact eventTo_client event_release
  | renew => exact eventTo_client event_renew
  | upgrade => exact eventTo_client event_upgrade
  | cancelUpgrade => exact eventTo_client event_cancelUpgrade
  | downgrade => exact eventTo_client event_downgrade
  | verify => exact eventTo_client fun c f => .of_eq (state_verify c f)
  | queryResource => exact eventTo_client fun _ _ => .refl
  | queryLease => exact eventTo_client fun c f => .of_eq (state_queryLease c f)
  | listMine => exact eventTo_client fun _ _ => .refl
  | detach => exact eventTo_client fun c _ => (orderly_detach c).event
  | resetPort => exact eventTo_client fun c _ => (orderly_resetPort c.port).event
  | status => exact eventTo_sup fun _ => .refl
  | readLease => exact eventTo_sup event_readLease
  | readResource => exact eventTo_sup fun _ => .refl
  | readQueue => exact eventTo_sup event_readQueue
  | readWait => exact eventTo_sup event_readWait
  | revoke => exact eventTo_sup event_revoke
  | revokeResource => exact eventTo_sup event_revokeResource
  | purgeClient => exact eventTo_sup event_purgeClient
  | setTimebase => exact eventTo_sup event_setTimebase
  | activate => exact eventTo_sup event_activate
  | cancelActivation => exact eventTo_sup event_cancelActivation
  | storeStageProgramEntry => exact eventTo_next event_stageRequest
  | storeStageErasePage => exact eventTo_next event_stageRequest
  | storeStageEraseDirectory => exact eventTo_next event_stageRequest
  | storeStageBlankCheck => exact eventTo_next event_stageRequest
  | storeStageScanCrc => exact eventTo_next event_stageRequest
  | storeStageWriteSettings => exact eventTo_next event_stageRequest
  | storeStageInitHeader => exact eventTo_next event_stageRequest
  | storeLaunch => exact eventTo_sup event_storeLaunch
  | storeDiscard => exact eventTo_sup event_storeDiscard
  | storeClear => exact eventTo_sup fun _ => (tidy_setStore (by rfl)).orderly.event
  | storeRead => exact eventTo_sup event_storeRead
  | restart done => exact eventTo_restart done
  | tick periods => exact eventTo_ite (orderly_count periods)
  | leaseTableTick => exact eventTo_leaseTableTick
  | waitPoolTick order => exact eventTo_waitPoolTick order
  | pendingUpgradesTick order => exact eventTo_pendingUpgradesTick order
  | leaseExpiry i => exact eventTo_leaseExpiry i
  | graceEnd i => exact eventTo_graceEnd i
  | waitTimeout j => exact eventTo_waitTimeout j
  | upgradeTimeout n => exact eventTo_upgradeTimeout n
  | grantFromQueue n => exact eventTo_grantFromQueue n
  | upgradeGrant n => exact eventTo_ite (tidy_serveUpgrade n).orderly
  | activationApplication n => exact eventTo_activationApplication n
  | owedNoticeDelivery p => exact eventTo_ite (tidy_deliverAllOwed p).orderly
  | heldNoticeDelivery => exact eventTo_ite orderly_deliverAllHeld
  | dispatch => exact eventTo_dispatch
  | programEntryComplete phys => exact eventTo_programEntryComplete phys
  | erasePageComplete phys => exact eventTo_erasePageComplete phys
  | eraseDirectoryComplete phys => exact eventTo_eraseDirectoryComplete phys
  | blankCheckComplete => exact eventTo_blankCheckComplete
  | scanCrcComplete => exact eventTo_scanCrcComplete
  | writeSettingsComplete phys => exact eventTo_writeSettingsComplete phys
  | initHeaderComplete phys => exact eventTo_initHeaderComplete phys
  | launchedCommandStart => exact eventTo_ite (tidy_setStore (Store.startLaunched_held _)).orderly

/-- A step takes the front command from the queue and carries it out: an event. -/
theorem event_step {t : State} (h : step s = .next t) : Event s t := by
  simp only [step] at h
  split at h
  · exact eventTo_self t h
  · rename_i c rest _
    have taken := eventTo_exec c { s with pending := rest } t h
    exact ⟨taken.booked, taken.owed, taken.cap, taken.delivery⟩

/-- Settles O10: every event keeps the owed lists exact, and delivers what there is room for. -/
theorem owedLawKept : Obligations.OwedLawKept :=
  ⟨fun _ _ lease owed h => (event_step h).owed (booked_of_leaseLaw lease) owed,
    fun _ _ activation delivery h => ((event_step h).delivery activation delivery).2⟩

/-- Settles O13: a slot or a wait entry comes to count for a client only by its own ACQUIRE, whose checks keep the
caps. -/
theorem capLawKept : Obligations.CapLawKept := fun _ _ lease cap h =>
  (event_step h).cap (booked_of_leaseLaw lease) cap

end Sys2Proof.Machine
end

section
/-! PROOFS. CANCEL_WAIT and RELEASE (R54, R56), and the judgement of the requests that carry a handle (R24, R64). -/

namespace Sys2Proof.Machine

variable {s : State}

/-! ### CANCEL_WAIT and RELEASE -/

/-- A wait that ends CANCELLED or DETACHED leaves its queue, and its slot and its entry become FREE (R51, R52). -/
theorem State.endWaitQuiet_queued {j : WaitNo} {w : Wait} {r : Limit} {i : SlotNo} (h : s.wait j = .queued w r i) :
    s.endWaitQuiet j = (s.leaveQueue j w.resource i).setWait j .free := by
  simp [State.endWaitQuiet, h]

/-- A lease that ends RELEASED or DETACHED leaves the holder list and the owed list, and its slot becomes FREE (R32,
R33). -/
theorem State.endLeaseQuiet_live {i : SlotNo} {l : Lease} (h : (s.slot i).body.live? = some l) :
    s.endLeaseQuiet i = ((s.leaveHolders i l.resource).leaveOwed l.client.port (.slot i)).freeSlot i := by
  simp [State.endLeaseQuiet, h]

theorem exec_cancelWait {c : Client} {f : Frame} (h : s.clientAsks Kind.cancelWait c f) :
    exec .cancelWait s = .next
      ((cancelWaitDecision c f s).1.clientAnswer Kind.cancelWait c f (cancelWaitDecision c f s).2) :=
  congrArg Host.Outcome.next (State.clientRequest_asks h)

theorem exec_release {c : Client} {f : Frame} (h : s.clientAsks Kind.release c f) :
    exec .release s = .next ((releaseDecision c f s).1.clientAnswer Kind.release c f (releaseDecision c f s).2) :=
  congrArg Host.Outcome.next (State.clientRequest_asks h)

/-- Settles O32: each decision is the end without a notice, then the grant rule. -/
theorem cancelWaitAndRelease : Obligations.CancelWaitAndRelease := by
  refine ⟨fun s c f h => ⟨fun none => ?_, fun j w r i some queued => ⟨_, ?_, rfl⟩⟩,
    fun s c f i l h handle => ⟨_, ?_, rfl⟩⟩
  · rw [exec_cancelWait h, cancelWaitDecision, none]
    rfl
  · rw [exec_cancelWait h, cancelWaitDecision, some]
    simp only [State.endWaitQuiet_queued queued]
    rfl
  · rw [exec_release h, releaseDecision, State.withHandle_for handle]
    obtain ⟨-, -, live, rfl⟩ := handle
    simp only [State.endLeaseQuiet_live live]
    rfl

/-! ### Handles (R24) -/

theorem slotOf_none {b : Byte} (h : 128 ≤ b.toNat) : slotOf? b = none := by
  simp [slotOf?, Nat.not_lt.2 h]

/-- A handle whose generation is another one, or whose slot is not live, is not accepted. -/
theorem State.accept_none {i : SlotNo} {g : Byte} (h : (s.slot i).generation ≠ g ∨ (s.slot i).body.live? = none) :
    s.accept i g = none := by
  rcases h with h | h <;> simp [State.accept, h]

/-- A slot above 127 is malformed, whatever the part state (R24, R158). -/
theorem State.withHandle_malformed {c : Client} {f : Frame} {before : Option Status} {d : SlotNo → Lease → Decision}
    (h : 128 ≤ (byteAt f 4).toNat) : s.withHandle c f before d = s.refuse .badRequest := by
  simp [State.withHandle, slotOf_none h]

/-- A refusal made before the handle is looked at (R64). -/
theorem State.withHandle_before {c : Client} {f : Frame} {st : Status} {d : SlotNo → Lease → Decision}
    (h : (byteAt f 4).toNat < 128) : s.withHandle c f (some st) d = s.refuse st := by
  simp [State.withHandle, slotOf?, h]

/-- A handle that is not accepted is stale (R24). -/
theorem State.withHandle_stale {c : Client} {f : Frame} {i : SlotNo} {d : SlotNo → Lease → Decision}
    (h4 : byteAt f 4 = byteOf i.val) (h : (s.slot i).generation ≠ byteAt f 5 ∨ (s.slot i).body.live? = none) :
    s.withHandle c f none d = s.refuse .staleHandle := by
  simp [State.withHandle, h4, slotOf_byteOf, State.accept_none h]

/-- An accepted handle of another client (R24). -/
theorem State.withHandle_notOwner {c o : Client} {f : Frame} {i : SlotNo} {l : Lease} {d : SlotNo → Lease → Decision}
    (h : s.handleFor o f i l) (ho : o ≠ c) : s.withHandle c f none d = s.refuse .notOwner := by
  obtain ⟨h4, h5, hl, rfl⟩ := h
  simp [State.withHandle, h4, slotOf_byteOf, State.accept, h5, hl, ho]

/-- The row answers a well-formed request of its kind through the handle check, with the refusal `before` it. -/
def HandleRow (s : State) (x : Instr) (k : Kind) (c : Client) (f : Frame) (before : Option Status) : Prop :=
  ∃ d : SlotNo → Lease → Decision, exec x s = .next
    ((s.withHandle c f before d).1.clientAnswer k c f (s.withHandle c f before d).2)

/-- A request that the handle check refuses changes nothing but its answer. -/
theorem HandleRow.refused {x : Instr} {k : Kind} {c : Client} {f : Frame} {before : Option Status} {st : Status}
    (h : HandleRow s x k c f before) (hr : ∀ d, s.withHandle c f before d = s.refuse st) :
    exec x s = .next (s.clientAnswer k c f (Reply.bare st)) := by
  obtain ⟨d, e⟩ := h
  rw [e, hr d]
  rfl

/-- The rows that check the owner; UPGRADE looks at the part state first (R24, R64). -/
theorem handleRow_of_owner {x : Instr} {k : Kind} {c : Client} {f : Frame}
    (hx : x ∈ [Instr.release, .renew, .upgrade, .cancelUpgrade, .downgrade]) (hk : rowKind x = some k)
    (h : s.clientAsks k c f) : ∃ before, HandleRow s x k c f before ∧ (s.part = .ready → before = none) := by
  have asks {d : Client → Frame → State → Decision} := State.clientRequest_asks (d := d) h
  have row {d : Client → Frame → State → Decision} (e : exec x s = .next (s.clientRequest k d)) :
      exec x s = .next ((d c f s).1.clientAnswer k c f (d c f s).2) := by rw [e, asks]
  simp only [List.mem_cons, List.not_mem_nil, or_false] at hx
  rcases hx with rfl | rfl | rfl | rfl | rfl <;> obtain rfl := Option.some.inj hk
  · exact ⟨none, ⟨_, row (d := releaseDecision) rfl⟩, fun _ => rfl⟩
  · exact ⟨none, ⟨_, row (d := renewDecision) rfl⟩, fun _ => rfl⟩
  · exact ⟨_, ⟨_, row (d := upgradeDecision) rfl⟩, fun ready => by simp [ready]⟩
  · exact ⟨none, ⟨_, row (d := cancelUpgradeDecision) rfl⟩, fun _ => rfl⟩
  · exact ⟨none, ⟨_, row (d := downgradeDecision) rfl⟩, fun _ => rfl⟩

theorem exec_queryLease {c : Client} {f : Frame} (h : s.clientAsks Kind.queryLease c f) :
    exec .queryLease s = .next
      ((queryLeaseDecision c f s).1.clientAnswer Kind.queryLease c f (queryLeaseDecision c f s).2) :=
  congrArg Host.Outcome.next (State.clientRequest_asks h)

/-- Settles O33: the handle check refuses before the request's own decision. -/
theorem handlesJudged : Obligations.HandlesJudged := by
  intro s c f owners
  refine ⟨fun x hx k hk h => ?_, fun x hx k hk h ready i l o handle ho => ?_, fun h spent slot => ?_⟩
  · rcases List.mem_cons.1 hx with rfl | hx
    · obtain rfl := Option.some.inj hk
      refine ⟨fun high => ?_, fun i _ h4 stale => ?_⟩
      · rw [exec_queryLease h, queryLeaseDecision, slotOf_none high]
        rfl
      · rw [exec_queryLease h, queryLeaseDecision, h4, slotOf_byteOf]
        simp only [State.accept_none stale]
        rfl
    · obtain ⟨before, row, first⟩ := handleRow_of_owner hx hk h
      refine ⟨fun high => row.refused fun _ => State.withHandle_malformed high, fun i ready h4 stale => ?_⟩
      obtain rfl := first ready
      exact row.refused fun _ => State.withHandle_stale h4 stale
  · obtain ⟨before, row, first⟩ := handleRow_of_owner hx hk h
    obtain rfl := first ready
    exact row.refused fun _ => State.withHandle_notOwner handle ho
  · have row : HandleRow s .upgrade Kind.upgrade c f (some .epochSpent) := by
      have e : exec .upgrade s = .next
          ((upgradeDecision c f s).1.clientAnswer Kind.upgrade c f (upgradeDecision c f s).2) :=
        congrArg Host.Outcome.next (State.clientRequest_asks h)
      simp only [upgradeDecision, spent, if_true] at e
      exact ⟨_, e⟩
    exact row.refused fun _ => State.withHandle_before slot

end Sys2Proof.Machine
end

section
/-! PROOFS. The end of a wait in its two forms (R51, R52), and the exhaustion of a resource's fences, which ends every
wait of its queue (R29). -/

namespace Sys2Proof.Machine

variable {s : State}

/-! ### The end of a wait (R51, R52) -/

section
variable {j : WaitNo} {w : Wait} {r : Limit} {i : SlotNo} (cause : WaitCause)

/-- A wait ends on a port that can take a notice: WAIT_ENDED is queued and the entry is FREE (R52). -/
theorem State.endWait_taken (h : s.wait j = .queued w r i) (hc : s.canTake w.client.port = true) :
    s.endWait cause j = ((s.leaveQueue j w.resource i).pushMessage (.client w.client.port)
      (waitEndedNotice w cause.code)).setWait j .free := by
  have hc' : (s.leaveQueue j w.resource i).canTake w.client.port = true := hc
  simp [State.endWait, h, hc']

/-- A wait ends on a port that can take none: the entry is ENDED and owes WAIT_ENDED (R52). -/
theorem State.endWait_owed (h : s.wait j = .queued w r i) (hc : s.canTake w.client.port = false) :
    s.endWait cause j =
      ((s.leaveQueue j w.resource i).setWait j (.ended w cause)).joinOwed w.client.port (.wait j) := by
  have hc' : (s.leaveQueue j w.resource i).canTake w.client.port = false := hc
  simp [State.endWait, h, hc']

/-- An entry that is not QUEUED does not end. -/
theorem State.endWait_of_not_queued (h : (s.wait j).queued? = none) : s.endWait cause j = s := by
  cases e : s.wait j <;> simp_all [State.endWait, WaitEntry.queued?]

theorem State.record_leaveQueue (n k : ResNo) :
    (s.leaveQueue j n i).record k =
      if k = n then { s.record n with queue := (s.record n).queue.erase j } else s.record k :=
  State.record_setRecord s n k _

theorem State.slot_leaveQueue (n : ResNo) (k : SlotNo) :
    (s.leaveQueue j n i).slot k =
      if k = i then { generation := (s.slot i).generation + 1, body := .free } else s.slot k :=
  State.slot_freeSlot (s.setRecord n _) i k

/-- The entry leaves the queue of its resource, and no record changes otherwise (R51, step 1). -/
theorem State.record_endWait (h : s.wait j = .queued w r i) (k : ResNo) :
    (s.endWait cause j).record k =
      if k = w.resource then { s.record w.resource with queue := (s.record w.resource).queue.erase j }
      else s.record k := by
  rw [← State.record_leaveQueue (j := j) (i := i)]
  by_cases hc : s.canTake w.client.port = true
  · rw [State.endWait_taken cause h hc]; rfl
  · rw [State.endWait_owed cause h (by simpa using hc)]; rfl

/-- The slot it had reserved becomes FREE, and no slot changes otherwise (R51, step 2). -/
theorem State.slot_endWait (h : s.wait j = .queued w r i) (k : SlotNo) :
    (s.endWait cause j).slot k =
      if k = i then { generation := (s.slot i).generation + 1, body := .free } else s.slot k := by
  rw [← State.slot_leaveQueue (j := j) w.resource]
  by_cases hc : s.canTake w.client.port = true
  · rw [State.endWait_taken cause h hc]; rfl
  · rw [State.endWait_owed cause h (by simpa using hc)]; rfl

/-- No other entry changes. -/
theorem State.wait_endWait_other {k : WaitNo} (hk : k ≠ j) : (s.endWait cause j).wait k = s.wait k := by
  simp only [State.endWait]
  split
  · split <;> simp [State.wait_setWait, hk, State.leaveQueue]
  all_goals rfl

/-- Where the notice is queued: the entry is FREE and WAIT_ENDED at the queue's tail (R52). -/
theorem State.endWait_taken_leaves (h : s.wait j = .queued w r i) (hc : s.canTake w.client.port = true) :
    (s.endWait cause j).wait j = .free ∧ (s.endWait cause j).sides = s.sides
      ∧ ((s.endWait cause j).port (.client w.client.port)).queue =
          (s.port (.client w.client.port)).queue ++ [waitEndedNotice w cause.code] := by
  rw [State.endWait_taken cause h hc]
  refine ⟨by simp [State.wait_setWait], rfl, ?_⟩
  rw [State.setWait_port, State.port_pushMessage, if_pos rfl]; rfl

/-- Where it is owed: the entry is ENDED, at the tail of the owed list (R52, R112). -/
theorem State.endWait_owed_leaves (h : s.wait j = .queued w r i) (hc : s.canTake w.client.port = false) :
    (s.endWait cause j).wait j = .ended w cause ∧ (s.endWait cause j).ports = s.ports
      ∧ ((s.endWait cause j).side w.client.port).owed = (s.side w.client.port).owed ++ [.wait j] := by
  rw [State.endWait_owed cause h hc]
  refine ⟨by simp [State.wait_setWait], rfl, ?_⟩
  rw [State.side_joinOwed, if_pos rfl]; rfl

/-- The client of a wait that has ended has been told, by a queued notice or by an owed one (R52). -/
def State.toldEnded (s : State) (j : WaitNo) (w : Wait) (cause : WaitCause) : Prop :=
  (s.wait j = .free ∧ waitEndedNotice w cause.code ∈ (s.port (.client w.client.port)).queue)
    ∨ (s.wait j = .ended w cause ∧ .wait j ∈ (s.side w.client.port).owed)

theorem State.toldEnded_endWait (h : s.wait j = .queued w r i) : (s.endWait cause j).toldEnded j w cause := by
  by_cases hc : s.canTake w.client.port = true
  · obtain ⟨free, -, queue⟩ := State.endWait_taken_leaves cause h hc
    exact .inl ⟨free, by simp [queue]⟩
  · obtain ⟨ended, -, owed⟩ := State.endWait_owed_leaves cause h (by simpa using hc)
    exact .inr ⟨ended, by simp [owed]⟩

end

/-! ### Waits that end one after the other -/

/-- What any ends of waits leave: the directory, the activation list, the array, the fences, the entries that are not
QUEUED, and the notices queued and owed. -/
structure WaitsEnd (s t : State) : Prop where
  entries : t.entries = s.entries
  activations : t.activations = s.activations
  array : t.array = s.array
  fences : ∀ n, (t.record n).fenceSpent = (s.record n).fenceSpent ∧ (t.record n).lastSeq = (s.record n).lastSeq
  waits : ∀ k, (s.wait k).queued? = none → t.wait k = s.wait k
  messages : ∀ p m, m ∈ (s.port p).queue → m ∈ (t.port p).queue
  owed : ∀ p x, x ∈ (s.side p).owed → x ∈ (t.side p).owed

theorem WaitsEnd.refl : WaitsEnd s s :=
  ⟨rfl, rfl, rfl, fun _ => ⟨rfl, rfl⟩, fun _ _ => rfl, fun _ _ => id, fun _ _ => id⟩

theorem WaitsEnd.trans {t u : State} (h : WaitsEnd s t) (k : WaitsEnd t u) : WaitsEnd s u where
  entries := k.entries.trans h.entries
  activations := k.activations.trans h.activations
  array := k.array.trans h.array
  fences n := ⟨(k.fences n).1.trans (h.fences n).1, (k.fences n).2.trans (h.fences n).2⟩
  waits j x := (k.waits j (by rw [h.waits j x, x])).trans (h.waits j x)
  messages p m x := k.messages p m (h.messages p m x)
  owed p x y := k.owed p x (h.owed p x y)

theorem PortsGrow.messages {t : State} (h : PortsGrow s t) {p : PortId} {m : Message} (hm : m ∈ (s.port p).queue) :
    m ∈ (t.port p).queue := by
  obtain ⟨ms, -, e, -⟩ := h p
  rw [e]
  exact List.mem_append_left ms hm

theorem State.owed_endWait {cause : WaitCause} {j : WaitNo} {p : CPort} {x : Ref} (h : x ∈ (s.side p).owed) :
    x ∈ ((s.endWait cause j).side p).owed := by
  simp only [State.endWait]
  split
  · split
    · exact h
    · rw [State.side_joinOwed]
      split
      · rename_i e; subst e; exact List.mem_append_left _ h
      · exact h
  all_goals exact h

theorem waitsEnd_endWait (cause : WaitCause) (j : WaitNo) : WaitsEnd s (s.endWait cause j) := by
  cases e : s.wait j with
  | queued w r i =>
    have frame : (s.endWait cause j).entries = s.entries ∧ (s.endWait cause j).activations = s.activations := by
      by_cases hc : s.canTake w.client.port = true
      · rw [State.endWait_taken cause e hc]; exact ⟨rfl, rfl⟩
      · rw [State.endWait_owed cause e (by simpa using hc)]; exact ⟨rfl, rfl⟩
    refine ⟨frame.1, frame.2, congrArg Steady.array (steady_endWait s cause j), fun n => ?_, fun k hk => ?_,
      fun p m => (ports_endWait s cause j).messages, fun p x => State.owed_endWait⟩
    · rw [State.record_endWait cause e]
      split
      · rename_i h; subst h; exact ⟨rfl, rfl⟩
      · exact ⟨rfl, rfl⟩
    · refine State.wait_endWait_other cause fun h => ?_
      rw [h, e] at hk
      simp [WaitEntry.queued?] at hk
  | _ =>
    rw [State.endWait_of_not_queued cause (by simp [e, WaitEntry.queued?])]
    exact .refl

/-- The waits of a list end one after the other, with one cause. -/
def State.endWaits (s : State) (cause : WaitCause) (js : List WaitNo) : State :=
  js.foldl (fun t j => t.endWait cause j) s

theorem State.endWaits_cons (cause : WaitCause) (j : WaitNo) (js : List WaitNo) :
    s.endWaits cause (j :: js) = (s.endWait cause j).endWaits cause js := rfl

theorem waitsEnd_endWaits (cause : WaitCause) (js : List WaitNo) : WaitsEnd s (s.endWaits cause js) := by
  induction js generalizing s with
  | nil => exact .refl
  | cons j js ih => exact (waitsEnd_endWait cause j).trans ih

/-- An entry that has ended is not QUEUED. -/
theorem State.queued_endWait (cause : WaitCause) (j : WaitNo) : ((s.endWait cause j).wait j).queued? = none := by
  cases e : s.wait j with
  | queued w r i => rcases State.toldEnded_endWait cause e with ⟨h, -⟩ | ⟨h, -⟩ <;> rw [h] <;> rfl
  | _ =>
    rw [State.endWait_of_not_queued cause (by simp [e, WaitEntry.queued?]), e]
    rfl

/-- No entry of the list is QUEUED at the end. -/
theorem State.queued_endWaits {cause : WaitCause} {js : List WaitNo} {j : WaitNo} (h : j ∈ js) :
    ((s.endWaits cause js).wait j).queued? = none := by
  induction js generalizing s with
  | nil => simp at h
  | cons k js ih =>
    rw [State.endWaits_cons]
    rcases List.mem_cons.1 h with rfl | h
    · have ended := State.queued_endWait (s := s) cause j
      rw [(waitsEnd_endWaits cause js).waits j ended, ended]
    · exact ih h

/-- A slot that no QUEUED entry of the list names stays as it is. -/
theorem State.slot_endWaits {cause : WaitCause} {js : List WaitNo} {i : SlotNo}
    (h : ∀ j ∈ js, (s.wait j).reserves ≠ some i) : (s.endWaits cause js).slot i = s.slot i := by
  induction js generalizing s with
  | nil => rfl
  | cons j js ih =>
    have here := h j List.mem_cons_self
    rw [State.endWaits_cons, ih]
    · cases e : s.wait j with
      | queued w r k =>
        have : i ≠ k := fun x => here (by rw [e, x]; rfl)
        rw [State.slot_endWait cause e, if_neg this]
      | _ => rw [State.endWait_of_not_queued cause (by simp [e, WaitEntry.queued?])]
    · intro k hk
      by_cases x : k = j
      · subst x
        have ended := State.queued_endWait (s := s) cause k
        cases e : (s.endWait cause k).wait k <;> simp_all [WaitEntry.reserves, WaitEntry.queued?]
      · rw [State.wait_endWait_other cause x]
        exact h k (List.mem_cons_of_mem j hk)

/-- Every wait of a queue ends: the queue is empty, each slot FREE, and each client told (R51, R52). -/
theorem State.endWaits_queue {cause : WaitCause} {js : List WaitNo} {n : ResNo} (hq : (s.record n).queue = js)
    (hn : js.Nodup) (hw : ∀ j ∈ js, ∃ w r i, s.wait j = .queued w r i ∧ w.resource = n) (hb : s.booked) :
    ((s.endWaits cause js).record n).queue = []
      ∧ ∀ (j : WaitNo) (w : Wait) (r : Limit) (i : SlotNo), j ∈ js → s.wait j = .queued w r i →
        (s.endWaits cause js).slot i = { generation := (s.slot i).generation + 1, body := .free }
          ∧ (s.endWaits cause js).toldEnded j w cause := by
  induction js generalizing s with
  | nil => exact ⟨hq, by simp⟩
  | cons k js ih =>
    obtain ⟨hk, hn'⟩ := List.nodup_cons.1 hn
    obtain ⟨wk, rk, ik, ek, resource⟩ := hw k List.mem_cons_self
    have other {j : WaitNo} (hj : j ∈ js) : (s.endWait cause k).wait j = s.wait j :=
      State.wait_endWait_other cause fun e => hk (e ▸ hj)
    have unnamed {j : WaitNo} (hj : j ∈ js) : (s.wait j).reserves ≠ some ik := fun e =>
      hk (hb.2 j k ik e (by rw [ek]; rfl) ▸ hj)
    obtain ⟨empty, rest⟩ := ih (s := s.endWait cause k)
      (by simp [State.record_endWait cause ek, resource, hq]) hn'
      (fun j hj => by rw [other hj]; exact hw j (List.mem_cons_of_mem k hj)) ((tidy_endWait cause k).booked hb)
    refine ⟨empty, fun j w r i hj e => ?_⟩
    rw [State.endWaits_cons]
    rcases List.mem_cons.1 hj with rfl | hj
    · obtain ⟨rfl, rfl, rfl⟩ : wk = w ∧ rk = r ∧ ik = i := by simpa [ek] using e
      refine ⟨?_, ?_⟩
      · rw [State.slot_endWaits fun j hj => by rw [other hj]; exact unnamed hj, State.slot_endWait cause ek, if_pos rfl]
      · have stays := waitsEnd_endWaits (s := s.endWait cause j) cause js
        have ended := stays.waits j (State.queued_endWait cause j)
        rcases State.toldEnded_endWait cause ek with ⟨h, m⟩ | ⟨h, m⟩
        · exact .inl ⟨ended.trans h, stays.messages _ _ m⟩
        · exact .inr ⟨ended.trans h, stays.owed _ _ m⟩
    · obtain ⟨slot, told⟩ := rest j w r i hj ((other hj).trans e)
      refine ⟨?_, told⟩
      have : i ≠ ik := fun x => unnamed hj (by rw [e, x]; rfl)
      rw [slot, State.slot_endWait cause ek, if_neg this]

/-! ### Exhaustion (R29) -/

theorem State.exhaust_of_ne {n : ResNo} (h : (s.record n).lastSeq ≠ 65535) : s.exhaust n = s := if_neg h

theorem State.exhaust_of_last {n : ResNo} (h : (s.record n).lastSeq = 65535) :
    s.exhaust n = (s.setRecord n { s.record n with fenceSpent := true }).endWaits .fenceSpent (s.record n).queue :=
  if_pos h

/-- Settles O37: exhaustion is the flag and the end of the queue's waits, one after the other. -/
theorem exhaustionEndsWaits : Obligations.ExhaustionEndsWaits := by
  refine fun s n => ⟨State.exhaust_of_ne, fun last => ?_⟩
  have spent : (s.setRecord n { s.record n with fenceSpent := true }).record n
      = { s.record n with fenceSpent := true } := by simp [State.record_setRecord]
  rw [State.exhaust_of_last last]
  have frame := waitsEnd_endWaits (s := s.setRecord n { s.record n with fenceSpent := true }) .fenceSpent
    (s.record n).queue
  obtain ⟨flag, seq⟩ := frame.fences n
  refine ⟨flag.trans (by rw [spent]), seq.trans (by rw [spent]; exact last), fun j hj => State.queued_endWaits hj,
    frame.entries, frame.activations, frame.array, fun lease list => ?_⟩
  obtain ⟨nodup, mem⟩ := list n
  refine State.endWaits_queue (s := s.setRecord n { s.record n with fenceSpent := true }) (by rw [spent]) nodup
    (fun j hj => ?_) ((tidy_setRecord n _).booked (booked_of_leaseLaw lease))
  obtain ⟨w, hw, rfl⟩ := Option.map_eq_some_iff.1 ((mem j).1 hj)
  cases e : s.wait j with
  | queued x r i =>
    obtain rfl : x = w := by simpa [e, WaitEntry.queued?] using hw
    exact ⟨x, r, i, e, rfl⟩
  | _ => simp [e, WaitEntry.queued?] at hw

end Sys2Proof.Machine
end

section
/-! PROOFS. The ends at 0 as events of their own: LEASE_EXPIRY, GRACE_END, WAIT_TIMEOUT and UPGRADE_TIMEOUT (R81, R88,
R50, R69; log 12). -/

namespace Sys2Proof.Machine

variable {s : State}

/-! ### The end of a lease (R32, R33) -/

section
variable {i : SlotNo} {l : Lease} (cause : EndCause)

/-- A lease that owes nothing ends on a port that can take a notice (R33). -/
theorem State.endLease_taken (h : (s.slot i).body.live? = some l) (ho : l.owed = none)
    (hc : s.canTake l.client.port = true) :
    s.endLease cause i = ((s.leaveHolders i l.resource).pushMessage (.client l.client.port)
      (leaseEndedNotice i (s.slot i).generation l (s.slot i).body.grace? cause.code)).freeSlot i := by
  have hc' : (s.leaveHolders i l.resource).canTake l.client.port = true := hc
  simp [State.endLease, h, ho, hc']

/-- A lease that owes a notice ends: LEASE_ENDED takes its place (R33, R113). -/
theorem State.endLease_owing (h : (s.slot i).body.live? = some l) (ho : l.owed ≠ none) :
    s.endLease cause i = (s.leaveHolders i l.resource).setBody i
      (.ended { l with owed := some .leaseEnded } (s.slot i).body.grace? cause) := by
  simp [State.endLease, h, ho]

/-- A lease that owes nothing ends on a port that can take no notice: LEASE_ENDED joins the owed list (R33, R112). -/
theorem State.endLease_owed (h : (s.slot i).body.live? = some l) (ho : l.owed = none)
    (hc : s.canTake l.client.port = false) :
    s.endLease cause i = ((s.leaveHolders i l.resource).setBody i
      (.ended { l with owed := some .leaseEnded } (s.slot i).body.grace? cause)).joinOwed l.client.port (.slot i) := by
  have hc' : (s.leaveHolders i l.resource).canTake l.client.port = false := hc
  simp [State.endLease, h, ho, hc']

/-- The slot leaves the holder list, with a pending upgrade of its own (R32, steps 1 and 2). -/
theorem State.record_endLease (h : (s.slot i).body.live? = some l) :
    (s.endLease cause i).record l.resource = (s.leaveHolders i l.resource).record l.resource := by
  by_cases ho : l.owed = none
  · by_cases hc : s.canTake l.client.port = true
    · rw [State.endLease_taken cause h ho hc]; rfl
    · rw [State.endLease_owed cause h ho (by simpa using hc)]; rfl
  · rw [State.endLease_owing cause h ho]; rfl

theorem State.record_leaveHolders (n : ResNo) :
    ((s.leaveHolders i n).record n).holders = (s.record n).holders.erase i
      ∧ ((s.leaveHolders i n).record n).upgradePending ≠ some i := by
  simp only [State.leaveHolders, State.record_setRecord, if_true]
  refine ⟨trivial, ?_⟩
  split
  · simp
  · assumption

/-- Where the lease ends with its notice queued: the slot is FREE, and the queue has LEASE_ENDED at its tail (R33). -/
theorem State.endLease_taken_leaves (h : (s.slot i).body.live? = some l) (ho : l.owed = none)
    (hc : s.canTake l.client.port = true) :
    (s.endLease cause i).slot i = { generation := (s.slot i).generation + 1, body := .free }
      ∧ ((s.endLease cause i).port (.client l.client.port)).queue = (s.port (.client l.client.port)).queue
          ++ [leaseEndedNotice i (s.slot i).generation l (s.slot i).body.grace? cause.code] := by
  rw [State.endLease_taken cause h ho hc]
  constructor
  · rw [State.slot_freeSlot, if_pos rfl]; rfl
  · rw [State.freeSlot_port, State.port_pushMessage, if_pos rfl]; rfl

/-- Where it is not: the slot is ENDED and owes LEASE_ENDED, in its old place of the owed list or at its tail (R33,
R112, R113). -/
theorem State.endLease_owed_leaves (h : (s.slot i).body.live? = some l)
    (hc : l.owed ≠ none ∨ s.canTake l.client.port = false) :
    (s.endLease cause i).slot i =
        { generation := (s.slot i).generation
          body := .ended { l with owed := some .leaseEnded } (s.slot i).body.grace? cause }
      ∧ (s.endLease cause i).ports = s.ports
      ∧ ((s.endLease cause i).side l.client.port).owed =
          if l.owed = none then (s.side l.client.port).owed ++ [.slot i] else (s.side l.client.port).owed := by
  by_cases ho : l.owed = none
  · rw [State.endLease_owed cause h ho (hc.resolve_left (not_not_intro ho)), if_pos ho]
    refine ⟨?_, rfl, ?_⟩
    · rw [State.joinOwed_slot, State.slot_setBody, if_pos rfl]; rfl
    · rw [State.side_joinOwed, if_pos rfl]; rfl
  · rw [State.endLease_owing cause h ho, if_neg ho]
    refine ⟨?_, rfl, rfl⟩
    rw [State.slot_setBody, if_pos rfl]; rfl

end

/-! ### The rows -/

theorem State.counting_of_frozen (h : s.run = .frozen) : s.counting = false := by simp [State.counting, h]

theorem State.counting_of_run (hs : s.serving = true) (h : s.run = .run) : s.counting = true := by
  simp [State.counting, hs, h]

/-- While FROZEN no end at 0 comes (R78). -/
theorem ends_frozen (h : s.run = .frozen) (i : SlotNo) (j : WaitNo) (n : ResNo) :
    exec (.leaseExpiry i) s = .next s ∧ exec (.graceEnd i) s = .next s ∧ exec (.waitTimeout j) s = .next s
      ∧ exec (.upgradeTimeout n) s = .next s := by
  have frozen := State.counting_of_frozen h
  refine ⟨?_, ?_, ?_, ?_⟩ <;>
    simp only [exec, execLeaseExpiry, execGraceEnd, execWaitTimeout, execUpgradeTimeout, frozen, Bool.false_and,
      Bool.false_eq_true, if_false] <;>
    split <;> rfl

/-- A live lease whose term is over ends EXPIRED (R81). -/
theorem exec_leaseExpiry {i : SlotNo} {l : Lease} (hc : s.counting = true) (hl : (s.slot i).body.live? = some l)
    (he : (s.slot i).body.tickEnd = some .expired) :
    exec (.leaseExpiry i) s = .next ((s.endLease .expired i).grantRule l.resource) := by
  simp [exec, execLeaseExpiry, hc, hl, he]

/-- A lease in REVOKING whose grace is over ends REVOKED (R88). -/
theorem exec_graceEnd {i : SlotNo} {l : Lease} (hc : s.counting = true) (hl : (s.slot i).body.live? = some l)
    (he : (s.slot i).body.tickEnd = some .revoked) :
    exec (.graceEnd i) s = .next ((s.endLease .revoked i).grantRule l.resource) := by
  simp [exec, execGraceEnd, hc, hl, he]

theorem exec_waitTimeout {j : WaitNo} {w : Wait} {i : SlotNo} (hc : s.counting = true)
    (h : s.wait j = .queued w (.ticks 0) i) :
    exec (.waitTimeout j) s = .next ((s.endWait .timeout j).grantRule w.resource) := by
  simp [exec, execWaitTimeout, hc, h, WaitEntry.queued?, WaitEntry.timedOut, Limit.isOver]

theorem exec_upgradeTimeout {n : ResNo} {i : SlotNo} {l : Lease} (hc : s.counting = true)
    (hu : (s.record n).upgradePending = some i) (hb : (s.slot i).body = .active l (some (.ticks 0))) :
    exec (.upgradeTimeout n) s = .next ((s.endUpgrade n .timeout).grantRule n) := by
  simp [exec, execUpgradeTimeout, hc, State.upgradeOver, hu, hb, SlotBody.deadlineOver, Limit.isOver]

/-! ### The end of a pending upgrade (R69) -/

/-- A pending upgrade is cleared: the slot keeps its lease, without the deadline. -/
theorem State.clearUpgrade_pending {n : ResNo} {i : SlotNo} {l : Lease} {d : Limit}
    (hu : (s.record n).upgradePending = some i) (hb : (s.slot i).body = .active l (some d)) :
    s.clearUpgrade n =
      (s.setRecord n { s.record n with upgradePending := none }).setSlot i
        { s.slot i with body := .active l none } := by
  simp [State.clearUpgrade, hu, hb, SlotBody.dropDeadline, State.setBody]

/-- The slot of a pending upgrade holds a lease on that resource (R5, R66). -/
theorem resource_of_pending {n : ResNo} {i : SlotNo} {l : Lease} {d : Option Limit} (lease : leaseLaw s)
    (upgrade : upgradeLaw s) (hu : (s.record n).upgradePending = some i) (hb : (s.slot i).body = .active l d) :
    l.resource = n := by
  obtain ⟨holders, -⟩ := lease
  obtain ⟨-, member, -⟩ := holders n
  have held := (member i).1 (upgrade.1 n i hu).1
  simpa [State.leaseOn, hb, SlotBody.live?] using held

section
variable {i : SlotNo} {l : Lease} {k : Owed} (h : (s.slot i).body.lease? = some l)
include h

/-- A notice offered on a port that can take it (R111). -/
theorem State.offer_taken (hc : s.canTake l.client.port = true) :
    s.offer i k = s.pushMessage (.client l.client.port) (s.slotNotice i l k) := by
  simp [State.offer, h, hc]

/-- A notice offered on a port that can take none, for a slot that owes none (R112). -/
theorem State.offer_owed (hc : s.canTake l.client.port = false) (ho : l.owed = none) :
    s.offer i k = (s.setOwed i (some k)).joinOwed l.client.port (.slot i) := by
  simp [State.offer, h, hc, ho]

/-- A notice offered on a port that can take none, for a slot that owes one (R113). -/
theorem State.offer_merged {old : Owed} (hc : s.canTake l.client.port = false) (ho : l.owed = some old) :
    s.offer i k = s.setOwed i (some (old.merge k)) := by
  simp [State.offer, h, hc, ho]

end

/-- UPGRADE_ENDED of a slot whose pending upgrade has been cleared: its snapshot shows no upgrade pending (R35, R69). -/
theorem State.slotNotice_upgradeEnded {i : SlotNo} {l : Lease} (hb : (s.slot i).body = .active l none)
    (hp : (s.record l.resource).upgradePending = none) (c : UpgradeEndCause) :
    s.slotNotice i l (.upgradeEnded c) =
      { isNotice := true, code := 0xC3#8, tag := byteOf l.client.tag.val, rid := 0x00#8, status := c.code,
        body := snapshot i (s.slot i).generation l 0x02#8 none false } := by
  simp [State.slotNotice, State.slotSnapshot, hb, SlotBody.lease?, SlotBody.code, SlotBody.grace?, State.upgradeNames,
    hp, Owed.code, Owed.rid, Owed.cause]

/-- The state in which UPGRADE_ENDED is offered, and what has changed in it (R69). -/
theorem State.endUpgrade_offers {n : ResNo} {i : SlotNo} {l : Lease} {d : Limit} (cause : UpgradeEndCause)
    (hu : (s.record n).upgradePending = some i) (hb : (s.slot i).body = .active l (some d)) :
    ∃ t : State, s.endUpgrade n cause = t.offer i (.upgradeEnded cause)
      ∧ t.record n = { s.record n with upgradePending := none }
      ∧ t.slot i = { generation := (s.slot i).generation, body := .active l none }
      ∧ t.ports = s.ports ∧ t.sides = s.sides :=
  ⟨(s.setRecord n { s.record n with upgradePending := none }).setSlot i { s.slot i with body := .active l none },
    by simp only [State.endUpgrade, hu, State.clearUpgrade_pending hu hb],
    by simp [State.record_setRecord], by simp [State.slot_setSlot], rfl, rfl⟩

/-- No record changes when a notice is offered. -/
theorem State.record_offer (i : SlotNo) (k : Owed) (n : ResNo) : (s.offer i k).record n = s.record n := by
  simp only [State.offer]
  split
  · rfl
  · split
    · rfl
    · split <;> rfl

/-- The resource has no pending upgrade any more, and its record does not change otherwise (R69). -/
theorem State.record_endUpgrade {n : ResNo} {i : SlotNo} {l : Lease} {d : Limit}
    (hu : (s.record n).upgradePending = some i) (hb : (s.slot i).body = .active l (some d)) (cause : UpgradeEndCause) :
    (s.endUpgrade n cause).record n = { s.record n with upgradePending := none } := by
  obtain ⟨t, offers, record, -⟩ := State.endUpgrade_offers cause hu hb
  rw [offers, State.record_offer, record]

section
variable {n : ResNo} {i : SlotNo} {l : Lease} {d : Limit} (lease : leaseLaw s) (upgrade : upgradeLaw s)
  (hu : (s.record n).upgradePending = some i) (hb : (s.slot i).body = .active l (some d)) (cause : UpgradeEndCause)

include lease upgrade hu hb

/-- Where the port can take a notice: UPGRADE_ENDED is queued, and the slot owes what it did (R69, R111). -/
theorem State.endUpgrade_taken_leaves (hc : s.canTake l.client.port = true) :
    (s.endUpgrade n cause).slot i = { generation := (s.slot i).generation, body := .active l none }
      ∧ (s.endUpgrade n cause).sides = s.sides
      ∧ ((s.endUpgrade n cause).port (.client l.client.port)).queue = (s.port (.client l.client.port)).queue ++
          [{ isNotice := true, code := 0xC3#8, tag := byteOf l.client.tag.val, rid := 0x00#8, status := cause.code,
             body := snapshot i (s.slot i).generation l 0x02#8 none false }] := by
  obtain ⟨t, offers, record, slot, ports, sides⟩ := State.endUpgrade_offers cause hu hb
  have cleared : (t.record l.resource).upgradePending = none := by
    rw [resource_of_pending lease upgrade hu hb, record]
  rw [offers, State.offer_taken (by rw [slot]; rfl) ((State.canTake_of_ports ports sides _).trans hc),
    State.slotNotice_upgradeEnded (by rw [slot]) cleared cause, slot]
  refine ⟨by rw [State.pushMessage_slot, slot], sides, ?_⟩
  rw [State.port_pushMessage, if_pos rfl, State.port, ports]
  rfl

omit lease upgrade

/-- Where it can take none: UPGRADE_ENDED joins the owed list, or merges with the notice owed (R69, R112, R113). -/
theorem State.endUpgrade_owed_leaves (hc : s.canTake l.client.port = false) :
    (s.endUpgrade n cause).ports = s.ports
      ∧ (l.owed = none →
        (s.endUpgrade n cause).slot i =
            { generation := (s.slot i).generation
              body := .active { l with owed := some (.upgradeEnded cause) } none }
          ∧ ((s.endUpgrade n cause).side l.client.port).owed = (s.side l.client.port).owed ++ [.slot i])
      ∧ ∀ old : Owed, l.owed = some old →
        (s.endUpgrade n cause).slot i =
            { generation := (s.slot i).generation
              body := .active { l with owed := some (old.merge (.upgradeEnded cause)) } none }
          ∧ (s.endUpgrade n cause).sides = s.sides := by
  obtain ⟨t, offers, -, slot, ports, sides⟩ := State.endUpgrade_offers cause hu hb
  have held : (t.slot i).body.lease? = some l := by rw [slot]; rfl
  have full : t.canTake l.client.port = false := (State.canTake_of_ports ports sides _).trans hc
  have side : t.side l.client.port = s.side l.client.port := by rw [State.side, State.side, sides]
  rw [offers]
  refine ⟨?_, fun silent => ?_, fun old owing => ?_⟩
  · cases owing : l.owed with
    | none => rw [State.offer_owed held full owing]; exact ports
    | some old => rw [State.offer_merged held full owing]; exact ports
  · rw [State.offer_owed held full silent]
    refine ⟨?_, by rw [State.side_joinOwed, if_pos rfl, State.setOwed_side, side]⟩
    rw [State.joinOwed_slot, State.slot_setOwed, if_pos rfl, slot]; rfl
  · rw [State.offer_merged held full owing]
    refine ⟨?_, sides⟩
    rw [State.slot_setOwed, if_pos rfl, slot]; rfl

end

/-- Settles O56, one clause for each kind of end. -/
theorem endsAtZero : Obligations.EndsAtZero := by
  refine ⟨fun s i j n frozen => ends_frozen frozen i j n, fun s serving run => ?_⟩
  have counting := State.counting_of_run serving run
  refine ⟨fun i l => ⟨fun d hb term => ?_, fun g hb grace term => ?_, fun hb => ?_, fun cause live => ?_⟩,
    fun j w i hj => ⟨exec_waitTimeout counting hj, ?_, ?_, State.endWait_taken_leaves .timeout hj,
      State.endWait_owed_leaves .timeout hj⟩,
    fun n i l lease upgrade hu hb => ⟨exec_upgradeTimeout counting hu hb, State.record_endUpgrade hu hb .timeout,
      State.endUpgrade_taken_leaves lease upgrade hu hb .timeout, State.endUpgrade_owed_leaves hu hb .timeout⟩⟩
  · exact exec_leaseExpiry counting (by rw [hb]; rfl) (by simp [hb, SlotBody.tickEnd, term])
  · exact exec_leaseExpiry counting (by rw [hb]; rfl) (by simp [hb, SlotBody.tickEnd, term, grace.ne'])
  · exact exec_graceEnd counting (by rw [hb]; rfl) (by simp [hb, SlotBody.tickEnd])
  · have record := State.record_endLease cause live
    obtain ⟨holders, pending⟩ := s.record_leaveHolders (i := i) l.resource
    exact ⟨record ▸ holders, record ▸ pending, State.endLease_taken_leaves cause live,
      State.endLease_owed_leaves cause live⟩
  · rw [State.record_endWait .timeout hj, if_pos rfl]
  · rw [State.slot_endWait .timeout hj, if_pos rfl]

end Sys2Proof.Machine
end

section
/-! PROOFS. When a resource is grantable (R39), and ACQUIRE: its refusals in their order, the grant at once and the
wait (R37, R38, R41, R42). -/

namespace Sys2Proof.Machine

variable {s : State}

/-! ### Grantability (R39) -/

/-- Settles O31: the clauses of R39, for an entry in each of its states. -/
theorem grantableWhen : Obligations.GrantableWhen := by
  intro s n
  cases e : s.entry n with
  | undefined => simp [State.grantable, e]
  | damaged => simp [State.grantable, e]
  | defined f => simp [State.grantable, e, and_assoc]

/-- A grantable resource is not fence spent (R39). -/
theorem State.fenceSpent_of_grantable {n : ResNo} {m : Mode} (h : s.grantable n m = true) :
    (s.record n).fenceSpent = false := by
  cases m with
  | exclusive =>
    obtain ⟨_, _, spent, _⟩ := (grantableWhen s n).1.1 h
    exact spent
  | shared =>
    obtain ⟨_, _, spent, _⟩ := (grantableWhen s n).2.1 h
    exact spent

/-! ### The slot and the wait entry that ACQUIRE takes (R21, R44) -/

/-- A search through all numbers in ascending order finds the lowest that passes. -/
theorem find_finRange_lowest {k : Nat} {p : Fin k → Bool} {i : Fin k} (hi : p i = true)
    (hl : ∀ x < i, p x = false) : (List.finRange k).find? p = some i := by
  rw [List.find?_eq_some_iff_getElem]
  refine ⟨hi, i.val, by simp, by simp, fun x hx => ?_⟩
  rw [List.getElem_finRange]
  simpa using hl ⟨x, _⟩ hx

theorem State.freeSlot_lowest {i : SlotNo} (hi : (s.slot i).body = .free) (hl : ∀ k < i, (s.slot k).body ≠ .free) :
    s.freeSlot? = some i :=
  find_finRange_lowest (by simpa using hi) fun k hk => by simpa using hl k hk

theorem State.freeWait_lowest {j : WaitNo} (hj : s.wait j = .free) (hl : ∀ k < j, s.wait k ≠ .free) :
    s.freeWait? = some j :=
  find_finRange_lowest (by simpa using hj) fun k hk => by simpa using hl k hk

theorem State.freeSlot_none (h : ∀ i : SlotNo, (s.slot i).body ≠ .free) : s.freeSlot? = none := by
  simp [State.freeSlot?, h]

theorem State.freeWait_none (h : ∀ j : WaitNo, s.wait j ≠ .free) : s.freeWait? = none := by
  simp [State.freeWait?, h]

/-- A FREE slot is found where there is one. -/
theorem State.freeSlot_isSome {i : SlotNo} (h : (s.slot i).body = .free) : ∃ k, s.freeSlot? = some k := by
  rw [← Option.isSome_iff_exists, State.freeSlot?, List.find?_isSome]
  exact ⟨i, List.mem_finRange i, by simpa using h⟩

/-! ### The checks (R37, R38) -/

theorem exec_acquire {c : Client} {f : Frame} (h : s.clientAsks Kind.acquire c f) :
    exec .acquire s = .next ((acquireDecision c f s).1.clientAnswer Kind.acquire c f (acquireDecision c f s).2) :=
  congrArg Host.Outcome.next (State.clientRequest_asks h)

/-- An ACQUIRE of a good mode in READY that checks 4 to 11 of R37 refuse. -/
theorem acquireDecision_refused {c : Client} {f : Frame} {m : Mode} {st : Status} (hm : modeOf? (byteAt f 5) = some m)
    (hp : s.part = .ready) (h : s.acquireRefusal c f.resource m = some st) :
    acquireDecision c f s = s.refuse st := by
  simp only [acquireDecision, hm, hp, reduceCtorEq, if_false, h]

/-- One that they let pass. -/
theorem acquireDecision_placed {c : Client} {f : Frame} {m : Mode} (hm : modeOf? (byteAt f 5) = some m)
    (hp : s.part = .ready) (h : s.acquireRefusal c f.resource m = none) :
    acquireDecision c f s = s.acquirePlace c f.resource m (f.word 6) (f.word 8) (byteAt f 2) := by
  simp only [acquireDecision, hm, hp, reduceCtorEq, if_false, h]

/-- What checks 4 to 11 of R37 ask of an ACQUIRE that passes them. -/
structure State.PassesChecks (s : State) (c : Client) (n : ResNo) (m : Mode) (e : Fields) : Prop where
  entry : s.entry n = .defined e
  admitted : e.admits c.port = true
  mode : ¬(m = .shared ∧ e.kind = .exclusiveOnly)
  noLease : s.holds c n = false
  noWait : s.waitOf? c n = none
  fences : (s.record n).fenceSpent = false
  cap : s.slotCount c < 16

theorem State.PassesChecks.acquireRefusal {c : Client} {n : ResNo} {m : Mode} {e : Fields}
    (h : s.PassesChecks c n m e) : s.acquireRefusal c n m = none := by
  have cap : ¬ Config.slotCap ≤ s.slotCount c := Nat.not_le.2 h.cap
  simp only [State.acquireRefusal, h.entry, h.admitted, h.mode, h.noLease, h.noWait, h.fences, cap, Bool.not_true,
    Bool.false_eq_true, Option.isSome_none, if_false]

/-- An ACQUIRE that passes them is placed: granted, queued, or refused for want of a place. -/
theorem State.PassesChecks.decision {c : Client} {f : Frame} {m : Mode} {e : Fields}
    (h : s.PassesChecks c f.resource m e) (hm : modeOf? (byteAt f 5) = some m) (hp : s.part = .ready) :
    acquireDecision c f s = s.acquirePlace c f.resource m (f.word 6) (f.word 8) (byteAt f 2) :=
  acquireDecision_placed hm hp h.acquireRefusal

/-- Check 13 of R38. -/
theorem State.grantsAtOnce_iff {n : ResNo} {m : Mode} :
    s.grantsAtOnce n m = true ↔ s.grantable n m = true ∧ (s.record n).queue = [] := by
  simp [State.grantsAtOnce]

/-! ### GRANTED (R41) -/

/-- After a grant to an empty queue, exhaustion is the fence-spent flag alone (R29). -/
theorem State.exhaust_empty {n : ResNo} (hq : (s.record n).queue = []) (hs : (s.record n).fenceSpent = false) :
    s.exhaust n = s.setRecord n { s.record n with fenceSpent := decide ((s.record n).lastSeq = 65535) } := by
  by_cases last : (s.record n).lastSeq = 65535
  · simp [State.exhaust, Config.last16, last, hq]
  · have same : { s.record n with fenceSpent := decide ((s.record n).lastSeq = 65535) } = s.record n := by
      rw [decide_eq_false last, ← hs]
    rw [same, State.setRecord_self, State.exhaust_of_ne last]

/-- Settles O28: past the checks, with the lowest FREE slot found, the grant and its exhaustion are written out. -/
theorem acquireGrantsAtOnce : Obligations.AcquireGrantsAtOnce := by
  intro s c f m e i term asks ready mode entry admitted kind holds waits cap free lowest grantable empty rfl
  have spent := State.fenceSpent_of_grantable grantable
  have checks : s.PassesChecks c f.resource m e := ⟨entry, admitted, kind, holds, waits, spent, cap⟩
  have term : (s.entry f.resource).fieldsD.termFor (f.word 6) =
      if f.word 6 = 0 then e.defaultTerm else min (f.word 6) e.maxTerm := by rw [entry]; rfl
  have placed : acquireDecision c f s = s.acquireGrant c f.resource m (f.word 6) i := by
    rw [checks.decision mode ready]
    simp only [State.acquirePlace, State.freeSlot_lowest free lowest, State.grantsAtOnce_iff.2 ⟨grantable, empty⟩,
      if_true]
  have granted : (s.grantSlot i f.resource c m (f.word 6)).record f.resource =
      { s.record f.resource with
        holders := (s.record f.resource).holders ++ [i], lastSeq := (s.record f.resource).lastSeq + 1 } := by
    simp [State.grantSlot, State.record_setRecord]
  refine ⟨(s.acquireGrant c f.resource m (f.word 6) i).1, ?_, ?_⟩
  · rw [exec_acquire asks, placed]
    simp only [State.acquireGrant, State.handleBytes, State.nextFence, Fence.bytes, term, List.append_assoc]
  · simp only [State.acquireGrant]
    rw [State.exhaust_empty (by rw [granted]; exact empty) (by rw [granted]; exact spent), granted]
    simp only [State.grantSlot, State.setRecord_setRecord, term]
    rfl

/-! ### QUEUED (R42) -/

/-- A wait that is allowed passes checks 14 and 15 of R38. -/
theorem State.waitRefusal_none {c : Client} {n : ResNo} {limit : Nat} {e : Fields} (he : s.entry n = .defined e)
    (hl : limit ≠ 0) (ha : e.waitAllowed = true) (hc : (s.waitsOf c).length < 2) : s.waitRefusal c n limit = none := by
  have cap : ¬ Config.waitCap ≤ (s.waitsOf c).length := Nat.not_le.2 hc
  simp [State.waitRefusal, he, Entry.fieldsD, hl, ha, cap]

/-- Settles O29: past the checks, with no grant at once and a wait allowed, the lowest FREE slot and entry are
booked. -/
theorem acquireQueues : Obligations.AcquireQueues := by
  intro s c f m e i j asks ready mode entry admitted kind holds waits spent cap free lowest later limit allowed room
    freeWait lowestWait
  have checks : s.PassesChecks c f.resource m e := ⟨entry, admitted, kind, holds, waits, spent, cap⟩
  have placed : acquireDecision c f s =
      s.acquireQueue c f.resource m (f.word 6) (f.word 8) (byteAt f 2) i j := by
    rw [checks.decision mode ready]
    simp only [State.acquirePlace, State.freeSlot_lowest free lowest, mt State.grantsAtOnce_iff.1 later,
      Bool.false_eq_true, if_false, State.waitRefusal_none entry limit allowed room,
      State.freeWait_lowest freeWait lowestWait]
  refine ⟨(s.acquireQueue c f.resource m (f.word 6) (f.word 8) (byteAt f 2) i j).1, ?_, rfl⟩
  rw [exec_acquire asks, placed]
  rfl

/-! ### The refusals -/

/-- The answer of an ACQUIRE that its decision refuses. -/
theorem exec_acquire_refused {c : Client} {f : Frame} {st : Status} (h : s.clientAsks Kind.acquire c f)
    (hd : acquireDecision c f s = s.refuse st) :
    exec .acquire s = .next (s.clientAnswer Kind.acquire c f (Reply.bare st)) := by
  rw [exec_acquire h, hd]
  rfl

section
variable {c : Client} {n : ResNo} {m : Mode} {e : Fields} (he : s.entry n = .defined e)

include he

/-- Checks 6 to 11 of R37, each with those before it passed. -/
theorem State.acquireRefusal_defined :
    (e.admits c.port = false → s.acquireRefusal c n m = some .notAdmitted)
    ∧ (e.admits c.port = true →
      (m = .shared → e.kind = .exclusiveOnly → s.acquireRefusal c n m = some .modeNotAllowed)
      ∧ (¬(m = .shared ∧ e.kind = .exclusiveOnly) →
        (s.holds c n = true → s.acquireRefusal c n m = some .alreadyHolder)
        ∧ (s.holds c n = false →
          ((s.waitOf? c n).isSome = true → s.acquireRefusal c n m = some .alreadyWaiting)
          ∧ (s.waitOf? c n = none →
            ((s.record n).fenceSpent = true → s.acquireRefusal c n m = some .fenceSpent)
            ∧ ((s.record n).fenceSpent = false →
              16 ≤ s.slotCount c → s.acquireRefusal c n m = some .capReached))))) := by
  simp only [State.acquireRefusal, he]
  refine ⟨fun h => by simp [h], fun admitted => ⟨fun hm hk => by simp [admitted, hm, hk], fun kind => ?_⟩⟩
  simp only [admitted, kind, Bool.not_true, Bool.false_eq_true, if_false]
  refine ⟨fun h => by simp [h], fun holds => ⟨fun h => by simp [holds, h], fun waits => ?_⟩⟩
  refine ⟨fun h => by simp [holds, waits, h], fun spent cap => ?_⟩
  have cap : Config.slotCap ≤ s.slotCount c := cap
  simp [holds, waits, spent, cap]

/-- Checks 14 and 15 of R38: a wait that is refused. -/
theorem State.waitRefusal_some {limit : Nat} :
    (limit = 0 ∨ e.waitAllowed = false → s.waitRefusal c n limit = some .busy)
    ∧ (¬(limit = 0 ∨ e.waitAllowed = false) → 2 ≤ (s.waitsOf c).length →
      s.waitRefusal c n limit = some .waitLimit) := by
  simp only [State.waitRefusal, he, Entry.fieldsD]
  refine ⟨fun h => if_pos h, fun h room => ?_⟩
  rw [if_neg h, if_pos (show Config.waitCap ≤ (s.waitsOf c).length from room)]

end

/-- Checks 16 and 17 of R38 and the refusals of a wait: an ACQUIRE that finds no slot, or that has to wait. -/
theorem State.acquirePlace_waits {c : Client} {n : ResNo} {m : Mode} {term limit : Nat} {rid : Byte} {i : SlotNo}
    (hf : (s.slot i).body = .free) (hg : ¬(s.grantable n m = true ∧ (s.record n).queue = [])) :
    (∀ st, s.waitRefusal c n limit = some st → s.acquirePlace c n m term limit rid = s.refuse st)
    ∧ (s.waitRefusal c n limit = none → (∀ j : WaitNo, s.wait j ≠ .free) →
      s.acquirePlace c n m term limit rid = s.refuse .noWaitSpace) := by
  obtain ⟨k, hk⟩ := State.freeSlot_isSome hf
  simp only [State.acquirePlace, hk, mt State.grantsAtOnce_iff.1 hg, Bool.false_eq_true, if_false]
  exact ⟨fun st h => by rw [h], fun h none => by rw [h, State.freeWait_none none]⟩

/-- Settles O30: each refusal from the check that makes it, the ones before it passed. -/
theorem acquireRefusedInOrder : Obligations.AcquireRefusedInOrder := by
  intro s c f asks
  refine ⟨fun mode => exec_acquire_refused asks (by simp only [acquireDecision, mode]), fun m mode =>
    ⟨fun spent => exec_acquire_refused asks (by simp only [acquireDecision, mode, spent, if_true]), fun ready => ?_⟩⟩
  have early {st : Status} (h : s.acquireRefusal c f.resource m = some st) :
      exec .acquire s = .next (s.clientAnswer Kind.acquire c f (Reply.bare st)) :=
    exec_acquire_refused asks (acquireDecision_refused mode ready h)
  refine ⟨fun h => early (by simp only [State.acquireRefusal, h]),
    fun h => early (by simp only [State.acquireRefusal, h]), fun e entry => ?_⟩
  obtain ⟨admits, checks⟩ := State.acquireRefusal_defined (c := c) (m := m) entry
  refine ⟨fun h => early (admits h), fun admitted => ⟨fun hm hk => early ((checks admitted).1 hm hk), fun kind => ?_⟩⟩
  obtain ⟨holder, checks⟩ := (checks admitted).2 kind
  refine ⟨fun h => early (holder h), fun holds => ⟨fun h => early ((checks holds).1 h), fun waits => ?_⟩⟩
  obtain ⟨fences, cap⟩ := (checks holds).2 waits
  refine ⟨fun h => early (fences h), fun spent => ⟨fun h => early (cap spent h), fun slots => ?_⟩⟩
  have passes : s.PassesChecks c f.resource m e := ⟨entry, admitted, kind, holds, waits, spent, slots⟩
  have late {st : Status}
      (h : s.acquirePlace c f.resource m (f.word 6) (f.word 8) (byteAt f 2) = s.refuse st) :
      exec .acquire s = .next (s.clientAnswer Kind.acquire c f (Reply.bare st)) :=
    exec_acquire_refused asks (by rw [passes.decision mode ready, h])
  refine ⟨fun full => late (by simp only [State.acquirePlace, State.freeSlot_none full]), fun i free later => ?_⟩
  obtain ⟨refused, space⟩ := State.acquirePlace_waits (c := c) (term := f.word 6) (limit := f.word 8)
    (rid := byteAt f 2) free later
  obtain ⟨busy, limited⟩ := State.waitRefusal_some (c := c) (limit := f.word 8) entry
  refine ⟨fun h => late (refused _ (busy h)), fun allowed => ⟨fun h => late (refused _ (limited allowed h)),
    fun room none => late (space ?_ none)⟩⟩
  rw [not_or, Bool.not_eq_false] at allowed
  exact State.waitRefusal_none entry allowed.1 allowed.2 room

end Sys2Proof.Machine
end

section
/-! PROOFS. The ledger of a state: what the laws of the holder lists, the bookings, the queues, the pending upgrades and
the activation marks read of it (R5, R6, R8, R14, R46, R59, R66), and what each operation does to it. -/

namespace Sys2Proof.Machine

/-! ### What the laws read of a slot and of a wait entry -/

/-- What a slot stands for in the tables: nothing, a booking for a wait, or a live lease, which may have a deadline. -/
inductive Role where
  | idle
  | booked (n : ResNo) (c : Client) (m : Mode)
  | holds (n : ResNo) (m : Mode) (upgrading : Bool)

def SlotBody.role : SlotBody → Role
  | .free | .ended _ _ _ => .idle
  | .reserved r => .booked r.resource r.client r.mode
  | .active l d => .holds l.resource l.mode d.isSome
  | .revoking l _ => .holds l.resource l.mode false

/-- The resource a live lease is held on. -/
def Role.on? : Role → Option ResNo
  | .holds n _ _ => some n
  | .idle | .booked _ _ _ => none

def Role.mode? : Role → Option Mode
  | .holds _ m _ => some m
  | .idle | .booked _ _ _ => none

/-- The resource at which a live lease waits for its upgrade (R66). -/
def Role.upgrades? : Role → Option ResNo
  | .holds n _ true => some n
  | .holds _ _ false | .idle | .booked _ _ _ => none

/-- The resource, client and mode a slot is RESERVED for (R46). -/
def Role.booking? : Role → Option (ResNo × Client × Mode)
  | .booked n c m => some (n, c, m)
  | .idle | .holds _ _ _ => none

/-- The lease without its deadline. -/
def Role.calm : Role → Role
  | .holds n m _ => .holds n m false
  | .idle => .idle
  | .booked n c m => .booked n c m

/-- The lease with another mode and its deadline as it is. -/
def Role.withMode (m : Mode) : Role → Role
  | .holds n _ u => .holds n m u
  | .idle => .idle
  | .booked n c m => .booked n c m

@[simp] theorem Role.on_idle : Role.idle.on? = none := rfl
@[simp] theorem Role.mode_idle : Role.idle.mode? = none := rfl
@[simp] theorem Role.upgrades_idle : Role.idle.upgrades? = none := rfl
@[simp] theorem Role.booking_idle : Role.idle.booking? = none := rfl
@[simp] theorem Role.on_booked (n : ResNo) (c : Client) (m : Mode) : (Role.booked n c m).on? = none := rfl
@[simp] theorem Role.mode_booked (n : ResNo) (c : Client) (m : Mode) : (Role.booked n c m).mode? = none := rfl
@[simp] theorem Role.upgrades_booked (n : ResNo) (c : Client) (m : Mode) : (Role.booked n c m).upgrades? = none := rfl
@[simp] theorem Role.booking_booked (n : ResNo) (c : Client) (m : Mode) :
    (Role.booked n c m).booking? = some (n, c, m) := rfl
@[simp] theorem Role.on_holds (n : ResNo) (m : Mode) (u : Bool) : (Role.holds n m u).on? = some n := rfl
@[simp] theorem Role.mode_holds (n : ResNo) (m : Mode) (u : Bool) : (Role.holds n m u).mode? = some m := rfl
@[simp] theorem Role.booking_holds (n : ResNo) (m : Mode) (u : Bool) : (Role.holds n m u).booking? = none := rfl
@[simp] theorem Role.upgrades_true (n : ResNo) (m : Mode) : (Role.holds n m true).upgrades? = some n := rfl
@[simp] theorem Role.upgrades_false (n : ResNo) (m : Mode) : (Role.holds n m false).upgrades? = none := rfl

@[simp] theorem Role.on_calm (r : Role) : r.calm.on? = r.on? := by cases r <;> rfl
@[simp] theorem Role.mode_calm (r : Role) : r.calm.mode? = r.mode? := by cases r <;> rfl
@[simp] theorem Role.booking_calm (r : Role) : r.calm.booking? = r.booking? := by cases r <;> rfl
@[simp] theorem Role.upgrades_calm (r : Role) : r.calm.upgrades? = none := by cases r <;> rfl
@[simp] theorem Role.on_withMode (m : Mode) (r : Role) : (r.withMode m).on? = r.on? := by cases r <;> rfl
@[simp] theorem Role.booking_withMode (m : Mode) (r : Role) : (r.withMode m).booking? = r.booking? := by cases r <;> rfl

@[simp] theorem Role.upgrades_withMode (m : Mode) (r : Role) : (r.withMode m).upgrades? = r.upgrades? := by
  cases r with
  | holds n x u => cases u <;> rfl
  | _ => rfl

theorem Role.mode_withMode {m : Mode} {r : Role} {x : Mode} (h : (r.withMode m).mode? = some x) : x = m := by
  cases r <;> simp_all [Role.withMode]

/-- A lease that waits for its upgrade is held on that resource. -/
theorem Role.on_of_upgrades {r : Role} {n : ResNo} (h : r.upgrades? = some n) : r.on? = some n := by
  cases r with
  | holds k m u => cases u <;> simp_all
  | _ => simp at h

/-- A slot with a lease is booked for no wait. -/
theorem Role.booking_of_on {r : Role} {n : ResNo} (h : r.on? = some n) : r.booking? = none := by
  cases r <;> simp_all

theorem Role.on_of_booking {r : Role} {x : ResNo × Client × Mode} (h : r.booking? = some x) : r.on? = none := by
  cases r <;> simp_all

theorem SlotBody.role_on (b : SlotBody) : b.role.on? = b.live?.map Lease.resource := by cases b <;> rfl

theorem SlotBody.role_mode (b : SlotBody) : b.role.mode? = b.live?.map Lease.mode := by cases b <;> rfl

theorem SlotBody.role_of_live {b : SlotBody} {l : Lease} (h : b.live? = some l) : b.role.on? = some l.resource := by
  rw [SlotBody.role_on, h]; rfl

theorem SlotBody.role_of_not_live {b : SlotBody} (h : b.live? = none) : b.role.on? = none := by
  rw [SlotBody.role_on, h]; rfl

/-- A change of the lease alone that keeps its resource and its mode. -/
theorem SlotBody.role_mapLease {f : Lease → Lease} (hr : ∀ l, (f l).resource = l.resource)
    (hm : ∀ l, (f l).mode = l.mode) (b : SlotBody) : (b.mapLease f).role = b.role := by
  cases b <;> simp [SlotBody.mapLease, SlotBody.role, hr, hm]

theorem SlotBody.role_dropDeadline (b : SlotBody) : b.dropDeadline.role = b.role.calm := by cases b <;> rfl

/-- The wait of a QUEUED entry, and the slot it has reserved. -/
def WaitEntry.claim? : WaitEntry → Option (Wait × SlotNo)
  | .queued w _ i => some (w, i)
  | .free | .ended _ _ => none

theorem WaitEntry.claim_iff {x : WaitEntry} {w : Wait} {i : SlotNo} :
    x.claim? = some (w, i) ↔ ∃ r, x = .queued w r i := by
  cases x <;> simp [WaitEntry.claim?]

theorem WaitEntry.claim_reserves (x : WaitEntry) : x.reserves = x.claim?.map Prod.snd := by cases x <;> rfl

theorem WaitEntry.claim_queued (x : WaitEntry) : x.queued? = x.claim?.map Prod.fst := by cases x <;> rfl

/-! ### The ledger -/

/-- What the laws read of a state; `listed` says that a PENDING entry for the resource stands on the activation list. -/
@[ext] structure Ledger where
  part : PartState
  entry : ResNo → Entry
  record : ResNo → Record
  role : SlotNo → Role
  claim : WaitNo → Option (Wait × SlotNo)
  listed : ResNo → Bool

def State.ledger (s : State) : Ledger :=
  { part := s.part, entry := s.entry, record := s.record, role := fun i => (s.slot i).body.role,
    claim := fun j => (s.wait j).claim?, listed := fun n => (s.pendingEntry n).isSome }

variable (s : State)

@[simp] theorem State.ledger_part : s.ledger.part = s.part := rfl
@[simp] theorem State.ledger_entry (n : ResNo) : s.ledger.entry n = s.entry n := rfl
@[simp] theorem State.ledger_record (n : ResNo) : s.ledger.record n = s.record n := rfl
@[simp] theorem State.ledger_role (i : SlotNo) : s.ledger.role i = (s.slot i).body.role := rfl
@[simp] theorem State.ledger_claim (j : WaitNo) : s.ledger.claim j = (s.wait j).claim? := rfl
@[simp] theorem State.ledger_listed (n : ResNo) : s.ledger.listed n = (s.pendingEntry n).isSome := rfl

def Ledger.setEntry (L : Ledger) (n : ResNo) (e : Entry) : Ledger := { L with entry := Function.update L.entry n e }
def Ledger.setRecord (L : Ledger) (n : ResNo) (r : Record) : Ledger :=
  { L with record := Function.update L.record n r }
def Ledger.setRole (L : Ledger) (i : SlotNo) (r : Role) : Ledger := { L with role := Function.update L.role i r }
def Ledger.setClaim (L : Ledger) (j : WaitNo) (x : Option (Wait × SlotNo)) : Ledger :=
  { L with claim := Function.update L.claim j x }
def Ledger.setListed (L : Ledger) (n : ResNo) (b : Bool) : Ledger :=
  { L with listed := Function.update L.listed n b }

/-! ### Each field after each update -/

section
variable (L : Ledger) (n k : ResNo) (i x : SlotNo) (j y : WaitNo) (e : Entry) (r : Record) (a : Role)
  (c : Option (Wait × SlotNo)) (b : Bool)

@[simp] theorem Ledger.setEntry_part : (L.setEntry n e).part = L.part := rfl
@[simp] theorem Ledger.setEntry_entry : (L.setEntry n e).entry k = if k = n then e else L.entry k :=
  Function.update_apply ..
@[simp] theorem Ledger.setEntry_record : (L.setEntry n e).record = L.record := rfl
@[simp] theorem Ledger.setEntry_role : (L.setEntry n e).role = L.role := rfl
@[simp] theorem Ledger.setEntry_claim : (L.setEntry n e).claim = L.claim := rfl
@[simp] theorem Ledger.setEntry_listed : (L.setEntry n e).listed = L.listed := rfl
@[simp] theorem Ledger.setRecord_part : (L.setRecord n r).part = L.part := rfl
@[simp] theorem Ledger.setRecord_entry : (L.setRecord n r).entry = L.entry := rfl
@[simp] theorem Ledger.setRecord_record : (L.setRecord n r).record k = if k = n then r else L.record k :=
  Function.update_apply ..
@[simp] theorem Ledger.setRecord_role : (L.setRecord n r).role = L.role := rfl
@[simp] theorem Ledger.setRecord_claim : (L.setRecord n r).claim = L.claim := rfl
@[simp] theorem Ledger.setRecord_listed : (L.setRecord n r).listed = L.listed := rfl
@[simp] theorem Ledger.setRole_part : (L.setRole i a).part = L.part := rfl
@[simp] theorem Ledger.setRole_entry : (L.setRole i a).entry = L.entry := rfl
@[simp] theorem Ledger.setRole_record : (L.setRole i a).record = L.record := rfl
@[simp] theorem Ledger.setRole_role : (L.setRole i a).role x = if x = i then a else L.role x :=
  Function.update_apply ..
@[simp] theorem Ledger.setRole_claim : (L.setRole i a).claim = L.claim := rfl
@[simp] theorem Ledger.setRole_listed : (L.setRole i a).listed = L.listed := rfl
@[simp] theorem Ledger.setClaim_part : (L.setClaim j c).part = L.part := rfl
@[simp] theorem Ledger.setClaim_entry : (L.setClaim j c).entry = L.entry := rfl
@[simp] theorem Ledger.setClaim_record : (L.setClaim j c).record = L.record := rfl
@[simp] theorem Ledger.setClaim_role : (L.setClaim j c).role = L.role := rfl
@[simp] theorem Ledger.setClaim_claim : (L.setClaim j c).claim y = if y = j then c else L.claim y :=
  Function.update_apply ..
@[simp] theorem Ledger.setClaim_listed : (L.setClaim j c).listed = L.listed := rfl
@[simp] theorem Ledger.setListed_part : (L.setListed n b).part = L.part := rfl
@[simp] theorem Ledger.setListed_entry : (L.setListed n b).entry = L.entry := rfl
@[simp] theorem Ledger.setListed_record : (L.setListed n b).record = L.record := rfl
@[simp] theorem Ledger.setListed_role : (L.setListed n b).role = L.role := rfl
@[simp] theorem Ledger.setListed_claim : (L.setListed n b).claim = L.claim := rfl
@[simp] theorem Ledger.setListed_listed : (L.setListed n b).listed k = if k = n then b else L.listed k :=
  Function.update_apply ..

theorem Ledger.setRole_self : L.setRole i (L.role i) = L := by simp [Ledger.setRole]

theorem Ledger.setClaim_self : L.setClaim j (L.claim j) = L := by simp [Ledger.setClaim]

theorem Ledger.setRecord_self : L.setRecord n (L.record n) = L := by simp [Ledger.setRecord]

end

/-! ### The updates of a state -/

@[simp] theorem ledger_setPort (p : PortId) (u : PortUnit) : (s.setPort p u).ledger = s.ledger := rfl
@[simp] theorem ledger_setSide (p : CPort) (v : ClientSide) : (s.setSide p v).ledger = s.ledger := rfl
@[simp] theorem ledger_setStore (x : Store) : (s.setStore x).ledger = s.ledger := rfl
@[simp] theorem ledger_setEngine (r : Option Request) : (s.setEngine r).ledger = s.ledger := rfl
@[simp] theorem ledger_pushMessage (p : PortId) (m : Message) : (s.pushMessage p m).ledger = s.ledger := rfl
@[simp] theorem ledger_joinOwed (p : CPort) (r : Ref) : (s.joinOwed p r).ledger = s.ledger := rfl
@[simp] theorem ledger_leaveOwed (p : CPort) (r : Ref) : (s.leaveOwed p r).ledger = s.ledger := rfl
@[simp] theorem ledger_placeResponse (p : PortId) (m : Message) : (s.placeResponse p m).ledger = s.ledger := rfl

@[simp] theorem ledger_setEntry (n : ResNo) (e : Entry) : (s.setEntry n e).ledger = s.ledger.setEntry n e := by
  ext1 <;> try rfl
  funext k
  rw [Ledger.setEntry_entry]
  exact State.entry_setEntry s n k e

@[simp] theorem ledger_setRecord (n : ResNo) (r : Record) : (s.setRecord n r).ledger = s.ledger.setRecord n r := by
  ext1 <;> try rfl
  funext k
  rw [Ledger.setRecord_record]
  exact State.record_setRecord s n k r

@[simp] theorem ledger_setSlot (i : SlotNo) (v : Slot) : (s.setSlot i v).ledger = s.ledger.setRole i v.body.role := by
  ext1 <;> try rfl
  funext k
  rw [Ledger.setRole_role, State.ledger_role, State.slot_setSlot]
  split <;> rfl

@[simp] theorem ledger_setBody (i : SlotNo) (b : SlotBody) : (s.setBody i b).ledger = s.ledger.setRole i b.role :=
  ledger_setSlot s i _

@[simp] theorem ledger_freeSlot (i : SlotNo) : (s.freeSlot i).ledger = s.ledger.setRole i .idle :=
  ledger_setSlot s i _

@[simp] theorem ledger_setWait (j : WaitNo) (x : WaitEntry) : (s.setWait j x).ledger = s.ledger.setClaim j x.claim? := by
  ext1 <;> try rfl
  funext k
  rw [Ledger.setClaim_claim, State.ledger_claim, State.wait_setWait]
  split <;> rfl

/-- A slot's new body with the role of its old one. -/
theorem ledger_setBody_same {i : SlotNo} {b : SlotBody} (h : b.role = (s.slot i).body.role) :
    (s.setBody i b).ledger = s.ledger := by
  rw [ledger_setBody, h]
  exact s.ledger.setRole_self i

@[simp] theorem ledger_setOwed (i : SlotNo) (o : Option Owed) : (s.setOwed i o).ledger = s.ledger :=
  ledger_setBody_same s (by simp [SlotBody.role_mapLease])

variable {s}

/-- An activation list with a PENDING entry for the same resources. -/
theorem ledger_setActivations {l : List Activation} {p : ResNo → Bool}
    (h : ∀ n, (l.find? fun a => a.pendingFor n).isSome = p n) :
    (s.setActivations l).ledger = { s.ledger with listed := p } := by
  ext1
  case listed => exact funext h
  all_goals rfl

/-- A list of operations that leave the ledger as it is. -/
theorem ledger_foldl_same {α : Type} {f : State → α → State} (h : ∀ t a, (f t a).ledger = t.ledger) (l : List α)
    (t : State) : (l.foldl f t).ledger = t.ledger := by
  induction l generalizing t with
  | nil => rfl
  | cons a l ih => rw [List.foldl_cons, ih, h]

variable (s)

/-! ### Operations that leave the ledger as it is -/

@[simp] theorem ledger_offer (i : SlotNo) (k : Owed) : (s.offer i k).ledger = s.ledger := by
  simp only [State.offer]
  split
  · rfl
  · split
    · rfl
    · split <;> simp

/-- A withdrawn or delivered record: an ENDED slot or wait entry stands for nothing, as a FREE one does. -/
@[simp] theorem ledger_dropOwed (r : Ref) : (s.dropOwed r).ledger = s.ledger := by
  cases r with
  | slot i =>
    simp only [State.dropOwed]
    split
    · rename_i h
      rw [ledger_freeSlot, show Role.idle = s.ledger.role i by rw [State.ledger_role, h]; rfl, Ledger.setRole_self]
    all_goals exact ledger_setOwed s i none
  | wait j =>
    simp only [State.dropOwed]
    split
    · rename_i h
      rw [ledger_setWait, show WaitEntry.free.claim? = s.ledger.claim j by rw [State.ledger_claim, h]; rfl,
        Ledger.setClaim_self]
    all_goals rfl

@[simp] theorem ledger_withdraw (p : CPort) (r : Ref) : (s.withdraw p r).ledger = s.ledger := by
  simp [State.withdraw]

@[simp] theorem ledger_withdrawAll (p : CPort) (refs : List Ref) : (s.withdrawAll p refs).ledger = s.ledger :=
  ledger_foldl_same (fun t r => ledger_withdraw t p r) refs s

/-- The head of an owed list is delivered (R114). -/
theorem ledger_deliverHead (p : CPort) (r : Ref) : ((s.leaveOwed p r).deliverRef p r).ledger = s.ledger := by
  rcases s.deliverRef_cases p r with ⟨m, h⟩ | ⟨-, h⟩ <;> rw [h] <;> simp

@[simp] theorem ledger_deliverOwed (fuel : Nat) (p : CPort) : (State.deliverOwed fuel p s).ledger = s.ledger := by
  induction fuel generalizing s with
  | zero => rfl
  | succ k ih =>
    simp only [State.deliverOwed]
    split
    · rfl
    · rename_i r rest h
      split
      · rw [ih, State.setSide_tail h, ledger_deliverHead]
      · rfl

@[simp] theorem ledger_deliverAllOwed (p : CPort) : (s.deliverAllOwed p).ledger = s.ledger := ledger_deliverOwed s _ p

end Sys2Proof.Machine
end

section
/-! PROOFS. What the ends, the grants and the upgrades do to the ledger (R29, R32, R51, R60, R65, R69, R85), and the
operations on notices, ports and the store, which leave it as it is. -/

namespace Sys2Proof.Machine

/-! ### The operations -/

/-- A wait ends: it leaves its queue, and its slot and its entry stand for nothing (R51). -/
def Ledger.endWait (L : Ledger) (j : WaitNo) : Ledger :=
  match L.claim j with
  | some (w, i) =>
    ((L.setRecord w.resource
      { L.record w.resource with queue := (L.record w.resource).queue.erase j }).setRole i .idle).setClaim j none
  | none => L

/-- The record of a resource whose pending upgrade is cleared if it is the slot's. -/
def Record.clearUpgrade (r : Record) (i : SlotNo) : Record :=
  { r with upgradePending := if r.upgradePending = some i then none else r.upgradePending }

/-- A lease ends: its slot leaves the holder list with a pending upgrade of its own, and stands for nothing (R32). -/
def Ledger.endLease (L : Ledger) (i : SlotNo) : Ledger :=
  match (L.role i).on? with
  | some n =>
    (L.setRecord n { (L.record n).clearUpgrade i with holders := (L.record n).holders.erase i }).setRole i .idle
  | none => L

/-- A lease loses its deadline and a pending upgrade of its own, as when it is revoked with a grace (R69, R85). -/
def Ledger.calm (L : Ledger) (i : SlotNo) : Ledger :=
  match (L.role i).on? with
  | some n => (L.setRecord n ((L.record n).clearUpgrade i)).setRole i (L.role i).calm
  | none => L

/-- A lease becomes EXCLUSIVE with the next fence, and no upgrade is pending (R65, R68). -/
def Ledger.upgrade (L : Ledger) (i : SlotNo) (n : ResNo) : Ledger :=
  (L.setRecord n { L.record n with upgradePending := none, lastSeq := (L.record n).lastSeq + 1 }).setRole i
    ((L.role i).calm.withMode .exclusive)

/-- A slot comes to hold a lease, at the tail of the holder list (R22). -/
def Ledger.grant (L : Ledger) (i : SlotNo) (n : ResNo) (m : Mode) : Ledger :=
  (L.setRole i (.holds n m false)).setRecord n
    { L.record n with holders := (L.record n).holders ++ [i], lastSeq := (L.record n).lastSeq + 1 }

/-- The head of a queue is granted: its slot holds the lease, and its entry stands for nothing (R60). -/
def Ledger.grantWait (L : Ledger) (n : ResNo) (j : WaitNo) (m : Mode) (i : SlotNo) : Ledger :=
  ((L.grant i n m).setRecord n
    { (L.grant i n m).record n with queue := ((L.grant i n m).record n).queue.erase j }).setClaim j none

/-- A FREE slot and a FREE wait entry become a waiting acquisition at the queue's tail (R42). -/
def Ledger.book (L : Ledger) (w : Wait) (i : SlotNo) (j : WaitNo) : Ledger :=
  ((L.setRole i (.booked w.resource w.client w.mode)).setClaim j (some (w, i))).setRecord w.resource
    { L.record w.resource with queue := (L.record w.resource).queue ++ [j] }

section
variable {L : Ledger} {i : SlotNo} {j : WaitNo} {n : ResNo} {w : Wait}

theorem Ledger.endWait_of_claim (h : L.claim j = some (w, i)) :
    L.endWait j = ((L.setRecord w.resource
      { L.record w.resource with queue := (L.record w.resource).queue.erase j }).setRole i .idle).setClaim j none := by
  simp only [Ledger.endWait, h]

theorem Ledger.endWait_of_none (h : L.claim j = none) : L.endWait j = L := by simp only [Ledger.endWait, h]

theorem Ledger.endLease_of_on (h : (L.role i).on? = some n) :
    L.endLease i = (L.setRecord n
      { (L.record n).clearUpgrade i with holders := (L.record n).holders.erase i }).setRole i .idle := by
  simp only [Ledger.endLease, h]

theorem Ledger.endLease_of_none (h : (L.role i).on? = none) : L.endLease i = L := by simp only [Ledger.endLease, h]

theorem Ledger.calm_of_on (h : (L.role i).on? = some n) :
    L.calm i = (L.setRecord n ((L.record n).clearUpgrade i)).setRole i (L.role i).calm := by
  simp only [Ledger.calm, h]

theorem Ledger.calm_of_none (h : (L.role i).on? = none) : L.calm i = L := by simp only [Ledger.calm, h]

end

/-! ### The operations of the state -/

variable (s : State)

theorem ledger_leaveQueue (j : WaitNo) (n : ResNo) (i : SlotNo) :
    (s.leaveQueue j n i).ledger =
      (s.ledger.setRecord n { s.record n with queue := (s.record n).queue.erase j }).setRole i .idle := by
  simp [State.leaveQueue]

theorem claim_of_queued {s : State} {j : WaitNo} {w : Wait} {r : Limit} {i : SlotNo} (h : s.wait j = .queued w r i) :
    s.ledger.claim j = some (w, i) := by rw [State.ledger_claim, h]; rfl

/-- An entry that is not QUEUED claims no slot. -/
theorem claim_of_not_queued {s : State} {j : WaitNo} (h : (s.wait j).queued? = none) : s.ledger.claim j = none := by
  rw [State.ledger_claim]
  cases e : s.wait j <;> simp_all [WaitEntry.claim?, WaitEntry.queued?]

@[simp] theorem ledger_endWait (cause : WaitCause) (j : WaitNo) :
    (s.endWait cause j).ledger = s.ledger.endWait j := by
  cases e : s.wait j with
  | queued w r i =>
    rw [Ledger.endWait_of_claim (claim_of_queued e)]
    by_cases hc : s.canTake w.client.port = true
    · rw [State.endWait_taken cause e hc, ledger_setWait, ledger_pushMessage, ledger_leaveQueue]; rfl
    · rw [State.endWait_owed cause e (by simpa using hc), ledger_joinOwed, ledger_setWait, ledger_leaveQueue]; rfl
  | _ =>
    have none : (s.wait j).queued? = none := by rw [e]; rfl
    rw [State.endWait_of_not_queued cause none, Ledger.endWait_of_none (claim_of_not_queued none)]

@[simp] theorem ledger_endWaitQuiet (j : WaitNo) : (s.endWaitQuiet j).ledger = s.ledger.endWait j := by
  cases e : s.wait j with
  | queued w r i =>
    rw [State.endWaitQuiet_queued e, Ledger.endWait_of_claim (claim_of_queued e), ledger_setWait, ledger_leaveQueue]
    rfl
  | _ =>
    rw [Ledger.endWait_of_none (claim_of_not_queued (by rw [e]; rfl))]
    simp only [State.endWaitQuiet, e]

@[simp] theorem ledger_endWaitPurged (j : WaitNo) : (s.endWaitPurged j).ledger = s.ledger.endWait j := by
  cases e : s.wait j with
  | queued w r i =>
    rw [Ledger.endWait_of_claim (claim_of_queued e)]
    simp only [State.endWaitPurged, e, ledger_setWait]
    split <;> simp only [ledger_pushMessage, ledger_leaveQueue] <;> rfl
  | _ =>
    rw [Ledger.endWait_of_none (claim_of_not_queued (by rw [e]; rfl))]
    simp only [State.endWaitPurged, e]

theorem ledger_leaveHolders (i : SlotNo) (n : ResNo) :
    (s.leaveHolders i n).ledger =
      s.ledger.setRecord n { (s.record n).clearUpgrade i with holders := (s.record n).holders.erase i } :=
  ledger_setRecord s n _

section
variable {s : State} {i : SlotNo} {l : Lease}

theorem on_of_live (h : (s.slot i).body.live? = some l) : (s.ledger.role i).on? = some l.resource :=
  SlotBody.role_of_live h

theorem ledger_endLease_of_none {f : State → SlotNo → State} (h : (s.slot i).body.live? = none) (hf : f s i = s) :
    (f s i).ledger = s.ledger.endLease i := by
  rw [hf, Ledger.endLease_of_none (SlotBody.role_of_not_live h)]

theorem ledger_endLease_of_live (h : (s.slot i).body.live? = some l) :
    ((s.leaveHolders i l.resource).freeSlot i).ledger = s.ledger.endLease i := by
  rw [Ledger.endLease_of_on (on_of_live h), ledger_freeSlot, ledger_leaveHolders]
  rfl

end

@[simp] theorem ledger_endLease (cause : EndCause) (i : SlotNo) :
    (s.endLease cause i).ledger = s.ledger.endLease i := by
  cases h : (s.slot i).body.live? with
  | none => exact ledger_endLease_of_none (f := fun s i => s.endLease cause i) h (by simp only [State.endLease, h])
  | some l =>
    rw [← ledger_endLease_of_live h]
    simp only [State.endLease, h]
    split
    · simp
    · split <;> simp [SlotBody.role]

@[simp] theorem ledger_endLeaseQuiet (i : SlotNo) : (s.endLeaseQuiet i).ledger = s.ledger.endLease i := by
  cases h : (s.slot i).body.live? with
  | none => exact ledger_endLease_of_none (f := State.endLeaseQuiet) h (by simp only [State.endLeaseQuiet, h])
  | some l =>
    rw [← ledger_endLease_of_live h, State.endLeaseQuiet_live h]
    simp

@[simp] theorem ledger_endLeasePurged (i : SlotNo) : (s.endLeasePurged i).ledger = s.ledger.endLease i := by
  cases h : (s.slot i).body.live? with
  | none => exact ledger_endLease_of_none (f := State.endLeasePurged) h (by simp only [State.endLeasePurged, h])
  | some l =>
    rw [← ledger_endLease_of_live h]
    simp only [State.endLeasePurged, h, ledger_freeSlot]
    split <;> simp

/-- A revocation ends the lease, or calms it (R85). -/
theorem ledger_revokeSlot (i : SlotNo) (g : Nat) :
    (s.revokeSlot i g).ledger = s.ledger
      ∨ (s.revokeSlot i g).ledger = if g = 0 then s.ledger.endLease i else s.ledger.calm i := by
  simp only [State.revokeSlot]
  split
  · rename_i l d h
    right
    split
    · exact ledger_endLease s _ i
    · have on : (s.ledger.role i).on? = some l.resource := by rw [State.ledger_role, h]; rfl
      have calm : (s.ledger.role i).calm = (SlotBody.revoking l g).role := by rw [State.ledger_role, h]; rfl
      rw [ledger_offer, ledger_setBody, Ledger.calm_of_on on, calm, State.ledger_record, Record.clearUpgrade]
      by_cases names : (s.record l.resource).upgradePending = some i
      · simp [State.upgradeNames, names]
      · have same := s.ledger.setRecord_self l.resource
        rw [State.ledger_record] at same
        simp only [State.upgradeNames, names, decide_false, Bool.false_eq_true, if_false, same]
  all_goals exact .inl rfl

theorem ledger_grantSlot (i : SlotNo) (n : ResNo) (c : Client) (m : Mode) (term : Nat) :
    (s.grantSlot i n c m term).ledger = s.ledger.grant i n m := by
  simp [State.grantSlot, Ledger.grant, SlotBody.role]

/-- The head of a queue is granted, and exhaustion follows (R60). -/
theorem ledger_grantWait (n : ResNo) (j : WaitNo) (w : Wait) (i : SlotNo) :
    ∃ t : State, s.grantWait n j w i = t.exhaust n ∧ t.ledger = s.ledger.grantWait n j w.mode i := by
  refine ⟨_, rfl, ?_⟩
  simp only [ledger_offer, ledger_setWait, ledger_setRecord, ledger_grantSlot, Ledger.grantWait]
  rw [← ledger_grantSlot s i n w.client w.mode (s.slot i).body.requestedTerm]
  rfl

theorem ledger_upgradeSlot (i : SlotNo) (n : ResNo) : (s.upgradeSlot i n).ledger = s.ledger.upgrade i n := by
  have role (b : SlotBody) (x : Fence) :
      (b.dropDeadline.mapLease fun l => { l with mode := .exclusive, fence := x }).role =
        b.role.calm.withMode .exclusive := by cases b <;> rfl
  simp only [State.upgradeSlot, ledger_setBody, ledger_setRecord, role, Ledger.upgrade]
  rfl

/-- The pending upgrade of a resource is cleared, if it has one (R69). -/
theorem ledger_clearUpgrade_none {n : ResNo} (h : (s.record n).upgradePending = none) :
    (s.clearUpgrade n).ledger = s.ledger := by
  simp only [State.clearUpgrade, h]

theorem ledger_clearUpgrade_some {n : ResNo} {i : SlotNo} (h : (s.record n).upgradePending = some i) :
    (s.clearUpgrade n).ledger =
      (s.ledger.setRecord n ((s.record n).clearUpgrade i)).setRole i (s.ledger.role i).calm := by
  simp only [State.clearUpgrade, h, ledger_setBody, ledger_setRecord, SlotBody.role_dropDeadline, Record.clearUpgrade,
    if_true, State.ledger_role]

theorem ledger_endUpgrade (n : ResNo) (cause : UpgradeEndCause) :
    (s.endUpgrade n cause).ledger = (s.clearUpgrade n).ledger := by
  cases h : (s.record n).upgradePending with
  | none => simp only [State.endUpgrade, State.clearUpgrade, h]
  | some i => simp only [State.endUpgrade, h, ledger_offer]

theorem ledger_recordUpgrade (i : SlotNo) (l : Lease) (limit : Nat) :
    (s.recordUpgrade i l limit).ledger =
      (s.ledger.setRecord l.resource { s.record l.resource with upgradePending := some i }).setRole i
        (.holds l.resource l.mode true) := by
  simp [State.recordUpgrade, SlotBody.role]

theorem ledger_downgradeSlot (i : SlotNo) :
    (s.downgradeSlot i).ledger = s.ledger.setRole i ((s.ledger.role i).withMode .shared) := by
  have role (b : SlotBody) : (b.mapLease fun l => { l with mode := .shared }).role = b.role.withMode .shared := by
    cases b <;> rfl
  simp [State.downgradeSlot, role]

theorem ledger_acquireQueue (c : Client) (n : ResNo) (m : Mode) (term limit : Nat) (rid : Byte) (i : SlotNo)
    (j : WaitNo) : (s.acquireQueue c n m term limit rid i j).1.ledger =
      s.ledger.book { client := c, resource := n, mode := m, rid := rid } i j := by
  simp only [State.acquireQueue, ledger_setRecord, ledger_setWait, ledger_setBody, Ledger.book]
  rfl

/-! ### Ticks, renewals, transactions and the store -/

/-- Every slot's body is replaced by one with the same role. -/
theorem ledger_mapSlots {f : SlotBody → SlotBody} (h : ∀ b : SlotBody, (f b).role = b.role) :
    State.ledger { s with slots := vmap (fun v => { v with body := f v.body }) s.slots } = s.ledger := by
  ext1 <;> try rfl
  funext i
  simp only [State.ledger_role, State.slot, vmap_get]
  exact h _

@[simp] theorem ledger_tickSlots : s.tickSlots.ledger = s.ledger :=
  ledger_mapSlots s fun b => by cases b <;> rfl

@[simp] theorem ledger_tickDeadlines : s.tickDeadlines.ledger = s.ledger :=
  ledger_mapSlots s fun b => by
    cases b with
    | active l d => cases d <;> rfl
    | _ => rfl

@[simp] theorem ledger_tickWaits : s.tickWaits.ledger = s.ledger := by
  ext1 <;> try rfl
  funext j
  simp only [State.ledger_claim, State.wait, State.tickWaits, vmap_get]
  cases s.waits.get j <;> rfl

@[simp] theorem ledger_warn (i : SlotNo) : (s.warn i).ledger = s.ledger := by
  simp only [State.warn]
  split
  · rename_i l d h
    split
    · rw [ledger_offer, ledger_setBody_same s (by rw [h]; rfl)]
    · rfl
  all_goals rfl

@[simp] theorem ledger_renewSlot (i : SlotNo) (l : Lease) (term : Nat) : (s.renewSlot i l term).ledger = s.ledger := by
  simp only [State.renewSlot]
  rw [ledger_setBody_same _ (SlotBody.role_mapLease (f := Lease.renewed term) (fun _ => rfl) (fun _ => rfl) _)]
  split <;> simp

@[simp] theorem ledger_answer (k : Kind) (r : Request) (a : Reply) : (s.answer k r a).ledger = s.ledger := rfl

@[simp] theorem ledger_takeFrame (p : PortId) (f : Frame) : (s.takeFrame p f).ledger = s.ledger := rfl

@[simp] theorem ledger_setTimebase (k : Nat) (r : RunState) : (s.setTimebase k r).ledger = s.ledger := rfl

@[simp] theorem ledger_count (periods : Nat) : (s.count periods).ledger = s.ledger := rfl

@[simp] theorem ledger_raiseStoreNotice (m : Message) : (s.raiseStoreNotice m).ledger = s.ledger := by
  simp only [State.raiseStoreNotice]
  split <;> rfl

@[simp] theorem ledger_skipLaunched : s.skipLaunched.ledger = s.ledger := by
  simp only [State.skipLaunched]
  split <;> simp

@[simp] theorem ledger_complete (op : StoreOp) (r : OpResult) : (s.complete op r).ledger = s.ledger := by
  simp only [State.complete, State.finishOp]
  split <;> simp only [ledger_skipLaunched, ledger_setStore, ledger_raiseStoreNotice] <;> rfl

@[simp] theorem ledger_stageCommand (j : Judged) : (s.stageCommand j).1.ledger = s.ledger := by
  simp only [State.stageCommand]
  split
  · rfl
  · rfl
  · split <;> rfl

/-- Taking the notice of an APPLIED entry leaves the PENDING ones (R123). -/
theorem find_pending_takeApplied {l : List Activation} {r : Message × List Activation} (h : takeApplied l = some r)
    (n : ResNo) : (r.2.find? fun a => a.pendingFor n) = l.find? fun a => a.pendingFor n := by
  induction l generalizing r with
  | nil => simp [takeApplied] at h
  | cons a t ih =>
    simp only [takeApplied] at h
    split at h
    · rename_i m hm
      obtain rfl := Option.some.inj h
      have applied : a.isApplied = true := a.isApplied_iff.2 (by simp [hm])
      have : a.pendingFor n = false := by
        by_contra pending
        simp [Activation.not_applied_of_pendingFor (Bool.not_eq_false _ ▸ pending)] at applied
      simp [this]
    · obtain ⟨x, hx, rfl⟩ := Option.map_eq_some_iff.1 h
      simp only [List.find?_cons, ih hx]

/-- The activation list loses the notice it delivers, and no PENDING entry. -/
theorem ledger_takeApplied {r : Message × List Activation} (h : takeApplied s.activations = some r) :
    (s.setActivations r.2).ledger = s.ledger :=
  ledger_setActivations fun n => by rw [find_pending_takeApplied h n]; rfl

@[simp] theorem ledger_offerActivated : s.offerActivated.ledger = s.ledger := by
  simp only [State.offerActivated]
  split
  · split
    · rename_i r h
      exact (ledger_takeApplied (s.pushMessage .sup r.1) h).trans (ledger_pushMessage s _ _)
    · rfl
  · rfl

theorem ledger_deliverHeldOne {t : State} (h : s.deliverHeldOne = some t) : t.ledger = s.ledger := by
  simp only [State.deliverHeldOne] at h
  split at h
  · split at h
    · obtain rfl := Option.some.inj h
      rfl
    · obtain ⟨r, hr, rfl⟩ := Option.map_eq_some_iff.1 h
      exact (ledger_takeApplied (s.pushMessage .sup r.1) hr).trans (ledger_pushMessage s _ _)
  · simp at h

@[simp] theorem ledger_deliverHeld (fuel : Nat) : (State.deliverHeld fuel s).ledger = s.ledger := by
  induction fuel generalizing s with
  | zero => rfl
  | succ k ih =>
    simp only [State.deliverHeld]
    split
    · rfl
    · rename_i h; rw [ih, ledger_deliverHeldOne s h]

@[simp] theorem ledger_deliverAllHeld : s.deliverAllHeld.ledger = s.ledger := ledger_deliverHeld s _

@[simp] theorem ledger_deliverTo (p : PortId) : (s.deliverTo p).ledger = s.ledger := by
  cases p with
  | client p => exact ledger_deliverAllOwed s p
  | sup => exact ledger_deliverAllHeld s

@[simp] theorem ledger_beginTransfer (p : PortId) (k : TransKind) : (s.beginTransfer p k).ledger = s.ledger := by
  simp only [State.beginTransfer]
  split <;> simp

@[simp] theorem ledger_reportTransfer (p : PortId) (k : TransKind) : (s.reportTransfer p k).ledger = s.ledger := by
  simp only [State.reportTransfer]
  split <;> simp

@[simp] theorem ledger_fixTransfer (p : PortId) (k : TransKind) : (s.fixTransfer p k).ledger = s.ledger := by
  simp only [State.fixTransfer]
  split <;> simp

theorem ledger_endTransfer {p : PortId} {k : TransKind} {bits : Nat} {ending : State → State}
    (h : ∀ t, (ending t).ledger = t.ledger) : (s.endTransfer p k bits ending).ledger = s.ledger := by
  simp only [State.endTransfer]
  split
  · split
    · rw [h]
      split <;> simp
    · simp
  · rfl

/-- A transaction at any of its moments, with what its rising edge does. -/
theorem ledger_transact {p : PortId} {k : TransKind} {e : Edge} {bits : Nat} {ending : State → State}
    (h : ∀ t, (ending t).ledger = t.ledger) : (s.transact p k e bits ending).ledger = s.ledger := by
  cases e with
  | begins => exact ledger_beginTransfer s p k
  | reports => exact ledger_reportTransfer s p k
  | fixes => exact ledger_fixTransfer s p k
  | ends => exact ledger_endTransfer s h
  | whole =>
    simp only [State.transact]
    split
    · rw [ledger_endTransfer _ h, ledger_beginTransfer]
    · rfl

theorem ledger_finishWrite (p : PortId) (sent : List Byte) : (s.finishWrite p sent).ledger = s.ledger := by
  simp only [State.finishWrite]
  split <;> simp

theorem ledger_finishRead (p : PortId) (bits : Nat) : (s.finishRead p bits).ledger = s.ledger := by
  simp only [State.finishRead]
  split
  · split
    · split <;> simp
    · simp
  · rfl

theorem ledger_finishPlain (p : PortId) (bits : Nat) : (s.finishPlain p bits).ledger = s.ledger := by
  simp only [State.finishPlain]
  split <;> simp

end Sys2Proof.Machine
end

section
/-! PROOFS. The laws of the holder lists, the bookings, the queues, the pending upgrades and the queues' heads on the
ledger of a state, and each operation on the ledger keeps them (R5, R6, R46, R59, R66). -/

namespace Sys2Proof.Machine

/-! ### The laws -/

/-- R5: the holder lists name the slots with a live lease, each once, and an EXCLUSIVE holder is alone. -/
structure Ledger.Held (L : Ledger) : Prop where
  nodup : ∀ n, (L.record n).holders.Nodup
  mem : ∀ n i, i ∈ (L.record n).holders ↔ (L.role i).on? = some n
  alone : ∀ n, ∀ i ∈ (L.record n).holders, (L.role i).mode? = some .exclusive → (L.record n).holders = [i]

/-- R46: each QUEUED entry names a slot booked for it, no two name the same, and each booked slot is named. -/
structure Ledger.Claimed (L : Ledger) : Prop where
  booking : ∀ j w i, L.claim j = some (w, i) → (L.role i).booking? = some (w.resource, w.client, w.mode)
  once : ∀ j k w x i, L.claim j = some (w, i) → L.claim k = some (x, i) → j = k
  named : ∀ i x, (L.role i).booking? = some x → ∃ j w, L.claim j = some (w, i)

/-- The lease law on the ledger. -/
structure Ledger.Leased (L : Ledger) : Prop where
  held : L.Held
  claimed : L.Claimed

/-- R6, with R4: the queues name the QUEUED entries, each once, and are empty during a start-up. -/
structure Ledger.Queues (L : Ledger) : Prop where
  nodup : ∀ n, (L.record n).queue.Nodup
  mem : ∀ n j, j ∈ (L.record n).queue ↔ (L.claim j).map (fun x => x.1.resource) = some n
  starting : L.part = .starting → ∀ n, (L.record n).queue = []

/-- R66: the pending upgrades are those of the leases with a deadline, and these are SHARED. -/
structure Ledger.Upgrades (L : Ledger) : Prop where
  named : ∀ n i, (L.record n).upgradePending = some i ↔ (L.role i).upgrades? = some n
  shared : ∀ i n, (L.role i).upgrades? = some n → (L.role i).mode? = some .shared

/-- The condition of R39 for each mode. -/
def Ledger.AdmitsMode (L : Ledger) (n : ResNo) (e : Fields) : Mode → Prop
  | .exclusive => (L.record n).holders = []
  | .shared => (L.record n).holders.length < e.holderLimit ∧ e.kind = .shareable
      ∧ (∀ i ∈ (L.record n).holders, (L.role i).mode? ≠ some .exclusive) ∧ (L.record n).upgradePending = none

/-- R39. -/
def Ledger.Grantable (L : Ledger) (n : ResNo) (m : Mode) : Prop :=
  ∃ e, L.entry n = .defined e ∧ (L.record n).fenceSpent = false ∧ (L.record n).activationPending = false
    ∧ L.AdmitsMode n e m

/-- R59 at one resource: its queue is empty or its head is not grantable. -/
def Ledger.HeadWaits (L : Ledger) (n : ResNo) : Prop :=
  ∀ j rest w i, (L.record n).queue = j :: rest → L.claim j = some (w, i) → ¬ L.Grantable n w.mode

/-- The service law, where a head may be grantable at the resources of the list alone. -/
structure Ledger.Serviced (L : Ledger) (ns : List ResNo) : Prop where
  queues : L.Queues
  upgrades : L.Upgrades
  heads : ∀ n ∉ ns, L.HeadWaits n

/-- R14: a pending activation stands on the list and its resource has a holder, where the resources of the list alone
may have lost it. -/
structure Ledger.Marked (L : Ledger) (ns : List ResNo) : Prop where
  listed : ∀ n, (L.record n).activationPending = true → L.listed n = true
  held : ∀ n ∉ ns, (L.record n).activationPending = true → (L.record n).holders ≠ []

/-! ### The laws of a state -/

section
variable {s : State}

theorem leaseOn_eq_role (s : State) (i : SlotNo) : s.leaseOn i = (s.ledger.role i).on? :=
  ((s.slot i).body.role_on).symm

theorem holderLaw_iff : holderLaw s ↔ s.ledger.Held := by
  have mode (i : SlotNo) : (s.slot i).body.live?.map Lease.mode = (s.ledger.role i).mode? :=
    ((s.slot i).body.role_mode).symm
  constructor
  · intro h
    exact ⟨fun n => (h n).1, fun n i => by rw [← leaseOn_eq_role]; exact (h n).2.1 i,
      fun n i hi hm => (h n).2.2 i hi (by rw [mode, hm])⟩
  · intro h n
    refine ⟨h.nodup n, fun i => ?_, fun i hi hm => h.alone n i hi (by rw [← mode, hm])⟩
    rw [leaseOn_eq_role]
    exact h.mem n i

theorem SlotBody.reservedFor_iff (b : SlotBody) (w : Wait) :
    b.reservedFor w ↔ b.role.booking? = some (w.resource, w.client, w.mode) := by
  cases b <;> simp [SlotBody.reservedFor, SlotBody.role, Reservation.answers]

theorem reservationLaw_iff : reservationLaw s ↔ s.ledger.Claimed := by
  have reserves (j : WaitNo) (i : SlotNo) : (s.wait j).reserves = some i ↔ ∃ w, s.ledger.claim j = some (w, i) := by
    rw [WaitEntry.claim_reserves, State.ledger_claim]
    simp
  constructor
  · rintro ⟨booking, once, named⟩
    refine ⟨fun j w i hj => ?_, fun j k w x i hj hk => ?_, fun i x hx => ?_⟩
    · obtain ⟨r, e⟩ := WaitEntry.claim_iff.1 hj
      have := booking j
      rw [e] at this
      exact (SlotBody.reservedFor_iff _ w).1 this
    · have hj := (reserves j i).2 ⟨w, hj⟩
      exact once j k (by rw [hj]; rfl) (hj.trans ((reserves k i).2 ⟨x, hk⟩).symm)
    · cases e : (s.slot i).body with
      | reserved r =>
        obtain ⟨j, hj⟩ := named i r e
        obtain ⟨w, hw⟩ := (reserves j i).1 hj
        exact ⟨j, w, hw⟩
      | _ => simp [State.ledger_role, e, SlotBody.role] at hx
  · intro h
    refine ⟨fun j => ?_, fun j k hs e => ?_, fun i r e => ?_⟩
    · cases e : s.wait j with
      | queued w r i => exact (SlotBody.reservedFor_iff _ w).2 (h.booking j w i (claim_of_queued e))
      | _ => trivial
    · obtain ⟨i, hi⟩ := Option.isSome_iff_exists.1 hs
      obtain ⟨w, hw⟩ := (reserves j i).1 hi
      obtain ⟨x, hx⟩ := (reserves k i).1 (e ▸ hi)
      exact h.once j k w x i hw hx
    · obtain ⟨j, w, hj⟩ := h.named i (r.resource, r.client, r.mode) (by rw [State.ledger_role, e]; rfl)
      exact ⟨j, (reserves j i).2 ⟨w, hj⟩⟩

theorem leaseLaw_iff : leaseLaw s ↔ s.ledger.Leased := by
  rw [leaseLaw, holderLaw_iff, reservationLaw_iff]
  exact ⟨fun h => ⟨h.1, h.2⟩, fun h => ⟨h.1, h.2⟩⟩

theorem waitListLaw_iff : waitListLaw s ∧ (s.part = .starting → ∀ n, (s.record n).queue = []) ↔ s.ledger.Queues := by
  have mem (j : WaitNo) : (s.wait j).queued?.map Wait.resource = (s.ledger.claim j).map fun x => x.1.resource := by
    rw [WaitEntry.claim_queued, State.ledger_claim, Option.map_map]
    rfl
  constructor
  · rintro ⟨h, starting⟩
    exact ⟨fun n => (h n).1, fun n j => by rw [← mem]; exact (h n).2 j, starting⟩
  · intro h
    refine ⟨fun n => ⟨h.nodup n, fun j => ?_⟩, h.starting⟩
    rw [mem]
    exact h.mem n j

theorem SlotBody.upgrades_iff (b : SlotBody) (n : ResNo) :
    b.role.upgrades? = some n ↔ ∃ (l : Lease) (d : Limit), b = .active l (some d) ∧ l.resource = n := by
  cases b with
  | active l d => cases d <;> simp [SlotBody.role]
  | _ => simp [SlotBody.role]

theorem upgradeLaw_iff (held : s.ledger.Held) : upgradeLaw s ↔ s.ledger.Upgrades := by
  constructor
  · rintro ⟨pending, deadline⟩
    have named (n : ResNo) (i : SlotNo) :
        (s.record n).upgradePending = some i ↔ (s.ledger.role i).upgrades? = some n := by
      rw [State.ledger_role, SlotBody.upgrades_iff]
      constructor
      · intro h
        obtain ⟨hi, l, d, e, -⟩ := pending n i h
        have on := (held.mem n i).1 hi
        rw [State.ledger_role, e] at on
        exact ⟨l, d, e, Option.some.inj on⟩
      · rintro ⟨l, d, e, rfl⟩
        exact deadline i l d e
    refine ⟨named, fun i n h => ?_⟩
    obtain ⟨-, l, d, e, shared⟩ := pending n i ((named n i).2 h)
    rw [State.ledger_role, e, ← shared]
    rfl
  · intro h
    refine ⟨fun n i hu => ?_, fun i l d e => (h.named l.resource i).2 (by rw [State.ledger_role, e]; rfl)⟩
    have hu := (h.named n i).1 hu
    refine ⟨(held.mem n i).2 (Role.on_of_upgrades hu), ?_⟩
    have shared := h.shared i n hu
    obtain ⟨l, d, e, -⟩ := (SlotBody.upgrades_iff _ n).1 hu
    rw [State.ledger_role, e] at shared
    exact ⟨l, d, e, Option.some.inj shared⟩

/-- Mode held, read from the roles of the holders (R5). -/
theorem modeHeld_exclusive (n : ResNo) :
    s.modeHeld n = some .exclusive ↔ ∃ i ∈ (s.record n).holders, (s.ledger.role i).mode? = some .exclusive := by
  simp only [State.ledger_role, SlotBody.role_mode]
  cases h : (s.record n).holders with
  | nil => simp [State.modeHeld, h]
  | cons a t =>
    simp only [State.modeHeld, h, List.any_eq_true, decide_eq_true_eq]
    split
    · rename_i yes; simpa using yes
    · rename_i no; simpa using no

theorem grantable_iff (n : ResNo) (m : Mode) : s.grantable n m = true ↔ s.ledger.Grantable n m := by
  obtain ⟨exclusive, shared⟩ := grantableWhen s n
  cases m with
  | exclusive => exact exclusive
  | shared =>
    rw [shared, Ne, modeHeld_exclusive]
    simp only [not_exists, not_and]
    exact Iff.rfl

theorem headWaits_iff (n : ResNo) : s.ledger.HeadWaits n ↔
    ∀ (j : WaitNo) (rest : List WaitNo) (w : Wait) (r : Limit) (i : SlotNo),
      (s.record n).queue = j :: rest → s.wait j = .queued w r i → s.grantable n w.mode = false := by
  constructor
  · intro h j rest w r i hq hj
    rw [← Bool.not_eq_true, grantable_iff]
    exact h j rest w i hq (claim_of_queued hj)
  · intro h j rest w i hq hj
    obtain ⟨r, e⟩ := WaitEntry.claim_iff.1 hj
    rw [← grantable_iff, Bool.not_eq_true]
    exact h j rest w r i hq e

theorem serviceLaw_iff (lease : leaseLaw s) : serviceLaw s ↔ s.ledger.Serviced [] := by
  have upgrades := upgradeLaw_iff (leaseLaw_iff.1 lease).held
  constructor
  · rintro ⟨lists, upgrade, starting, heads⟩
    exact ⟨waitListLaw_iff.1 ⟨lists, starting⟩, upgrades.1 upgrade, fun n _ => (headWaits_iff n).2 (heads n)⟩
  · intro h
    obtain ⟨lists, starting⟩ := waitListLaw_iff.2 h.queues
    exact ⟨lists, upgrades.2 h.upgrades, starting, fun n => (headWaits_iff n).1 (h.heads n List.not_mem_nil)⟩

/-- The mark law, with the part of the activation law that carries it from step to step (R8). -/
theorem marked_of_laws (activation : activationLaw s) (mark : markLaw s) : s.ledger.Marked [] := by
  refine ⟨fun n h => ?_, fun n _ => mark n⟩
  have count := activation.2 n
  rw [State.ledger_record] at h
  rw [h, Bool.toNat_true] at count
  rw [State.ledger_listed, State.pendingEntry, List.find?_isSome]
  exact List.countP_pos_iff.1 (by omega)

theorem markLaw_of_marked (h : s.ledger.Marked []) : markLaw s := fun n => h.held n List.not_mem_nil

end

/-! ### What changes elsewhere leaves a law as it was -/

section
variable {L M : Ledger} {ns : List ResNo}

/-- The holder lists are as they were, and no lease has come to be EXCLUSIVE but that of a sole holder. -/
theorem Ledger.Held.congr (h : L.Held) (hh : ∀ n, (M.record n).holders = (L.record n).holders)
    (ho : ∀ i, (M.role i).on? = (L.role i).on?)
    (hm : ∀ n, ∀ i ∈ (L.record n).holders, (M.role i).mode? = some .exclusive →
      (L.role i).mode? = some .exclusive ∨ (L.record n).holders = [i]) : M.Held where
  nodup n := by rw [hh]; exact h.nodup n
  mem n i := by rw [hh, ho]; exact h.mem n i
  alone n i hi he := by
    rw [hh] at hi ⊢
    exact (hm n i hi he).elim (h.alone n i hi) id

theorem Ledger.Claimed.congr (h : L.Claimed) (hc : M.claim = L.claim)
    (hb : ∀ i, (M.role i).booking? = (L.role i).booking?) : M.Claimed where
  booking j w i := by rw [hc, hb]; exact h.booking j w i
  once := by rw [hc]; exact h.once
  named i x := by rw [hc, hb]; exact h.named i x

theorem Ledger.Queues.congr (h : L.Queues) (hp : M.part = L.part) (hc : M.claim = L.claim)
    (hq : ∀ n, (M.record n).queue = (L.record n).queue) : M.Queues where
  nodup n := by rw [hq]; exact h.nodup n
  mem n j := by rw [hq, hc]; exact h.mem n j
  starting x n := by rw [hq]; exact h.starting (hp ▸ x) n

theorem Ledger.Upgrades.congr (h : L.Upgrades)
    (hu : ∀ n, (M.record n).upgradePending = (L.record n).upgradePending)
    (hr : ∀ i, (M.role i).upgrades? = (L.role i).upgrades?)
    (hm : ∀ i, (L.role i).mode? = some .shared → (M.role i).mode? = some .shared) : M.Upgrades where
  named n i := by rw [hu, hr]; exact h.named n i
  shared i n hi := hm i (h.shared i n (hr i ▸ hi))

/-- The lease of a slot has lost its deadline, and its resource a pending upgrade of it. -/
theorem Ledger.Upgrades.clear (h : L.Upgrades) {n : ResNo} {i : SlotNo} (hi : (M.role i).upgrades? = none)
    (hn : ∀ k, (L.role i).upgrades? = some k → k = n) (hr : ∀ x, x ≠ i → M.role x = L.role x)
    (hu : ∀ k, (M.record k).upgradePending =
      if k = n ∧ (L.record k).upgradePending = some i then none else (L.record k).upgradePending) : M.Upgrades where
  named k x := by
    by_cases hx : x = i
    · subst hx
      have : (M.record k).upgradePending ≠ some x := by
        rw [hu k]
        split
        · simp
        · rename_i other
          exact fun e => other ⟨hn k ((h.named k x).1 e), e⟩
      simp [this, hi]
    · rw [hr x hx, ← h.named, hu k]
      split
      · rename_i both
        have : i ≠ x := Ne.symm hx
        simp [both.2, this]
      · rfl
  shared x k hx := by
    by_cases e : x = i
    · subst e; simp [hi] at hx
    · rw [hr x e] at hx ⊢
      exact h.shared x k hx

/-- At a resource whose entry, record and holders have not changed, but for the queue, no mode has come to be
grantable. -/
theorem Ledger.Grantable.back {n : ResNo} {m : Mode} {q : List WaitNo} (h : M.Grantable n m)
    (hr : M.record n = { L.record n with queue := q }) (he : M.entry n = L.entry n)
    (hm : ∀ i ∈ (L.record n).holders, (M.role i).mode? = (L.role i).mode?) : L.Grantable n m := by
  obtain ⟨e, entry, spent, mark, admits⟩ := h
  rw [hr] at spent mark
  refine ⟨e, he ▸ entry, spent, mark, ?_⟩
  cases m with
  | exclusive => rw [Ledger.AdmitsMode, hr] at admits; exact admits
  | shared =>
    rw [Ledger.AdmitsMode, hr] at admits
    obtain ⟨room, kind, shared, free⟩ := admits
    exact ⟨room, kind, fun i hi => by rw [← hm i hi]; exact shared i hi, free⟩

/-- The head of a queue waits still where nothing of its resource has changed but entries that are QUEUED no more. -/
theorem Ledger.HeadWaits.elsewhere {n : ResNo} (h : L.HeadWaits n) (held : L.Held) (hr : M.record n = L.record n)
    (he : M.entry n = L.entry n) (hm : ∀ i, (L.role i).on? = some n → M.role i = L.role i)
    (hc : ∀ j ∈ (L.record n).queue, ∀ x, M.claim j = some x → L.claim j = some x) : M.HeadWaits n := by
  intro j rest w i hq hj grantable
  rw [hr] at hq
  exact h j rest w i hq (hc j (by simp [hq]) _ hj)
    (grantable.back hr he fun x hx => by rw [hm x ((held.mem n x).1 hx)])

/-- A fence-spent resource grants nothing (R29). -/
theorem Ledger.HeadWaits.of_spent {n : ResNo} (h : (L.record n).fenceSpent = true) : L.HeadWaits n := by
  rintro j rest w i - - ⟨e, -, spent, -⟩
  simp [h] at spent

/-- So does one whose activation is pending (R13). -/
theorem Ledger.HeadWaits.of_mark {n : ResNo} (h : (L.record n).activationPending = true) : L.HeadWaits n := by
  rintro j rest w i - - ⟨e, -, -, mark, -⟩
  simp [h] at mark

theorem Ledger.HeadWaits.of_empty {n : ResNo} (h : (L.record n).queue = []) : L.HeadWaits n := by
  intro j rest w i hq
  simp [h] at hq

/-- So does one with an EXCLUSIVE holder. -/
theorem Ledger.HeadWaits.of_exclusive {n : ResNo} {i : SlotNo} (hi : i ∈ (L.record n).holders)
    (hm : (L.role i).mode? = some .exclusive) : L.HeadWaits n := by
  rintro j rest w x - - ⟨e, -, -, -, admits⟩
  cases hw : w.mode with
  | exclusive => rw [hw, Ledger.AdmitsMode] at admits; simp [admits] at hi
  | shared => rw [hw] at admits; exact admits.2.2.1 i hi hm

/-- The law with a shorter list, where the heads left out wait. -/
theorem Ledger.Serviced.settle {ms : List ResNo} (h : L.Serviced ns) (hn : ∀ n ∈ ns, n ∉ ms → L.HeadWaits n) :
    L.Serviced ms :=
  ⟨h.queues, h.upgrades, fun n out => if hin : n ∈ ns then hn n hin out else h.heads n hin⟩

theorem Ledger.Serviced.mono {ms : List ResNo} (h : L.Serviced ns) (sub : ns ⊆ ms) : L.Serviced ms :=
  h.settle fun _ hin out => absurd (sub hin) out

theorem Ledger.Marked.settle {ms : List ResNo} (h : L.Marked ns)
    (hn : ∀ n ∈ ns, n ∉ ms → (L.record n).activationPending = true → (L.record n).holders ≠ []) : L.Marked ms :=
  ⟨h.listed, fun n out => if hin : n ∈ ns then hn n hin out else h.held n hin⟩

theorem Ledger.Marked.mono {ms : List ResNo} (h : L.Marked ns) (sub : ns ⊆ ms) : L.Marked ms :=
  h.settle fun _ hin out => absurd (sub hin) out

/-- The marks, the list and the holders of the resources outside the list of those that may be drained are kept. -/
theorem Ledger.Marked.congr (h : L.Marked ns) (hl : M.listed = L.listed)
    (hm : ∀ n, (M.record n).activationPending = (L.record n).activationPending)
    (hh : ∀ n ∉ ns, (L.record n).holders ≠ [] → (M.record n).holders ≠ []) : M.Marked ns where
  listed n x := by rw [hl]; exact h.listed n (hm n ▸ x)
  held n out x := hh n out (h.held n out (hm n ▸ x))

end

end Sys2Proof.Machine
end

section
/-! PROOFS. Each operation on the ledger keeps the laws: ends of waits and of leases, grants, upgrades and bookings
(R32, R42, R51, R60, R65, R66, R69, R73, R85). -/

namespace Sys2Proof.Machine

variable {L : Ledger} {ns : List ResNo} {i : SlotNo} {j : WaitNo} {n : ResNo} {m : Mode} {w : Wait}

/-! ### The end of a wait (R51) -/

section
variable (hj : L.claim j = some (w, i))
include hj

theorem Ledger.Claimed.on_none (h : L.Claimed) : (L.role i).on? = none := Role.on_of_booking (h.booking j w i hj)

/-- A claim is settled: the entry claims nothing, and its slot is booked no more. -/
theorem Ledger.Claimed.close (h : L.Claimed) {M : Ledger} (hc : ∀ k, M.claim k = if k = j then none else L.claim k)
    (hi : (M.role i).booking? = none) (hr : ∀ x, x ≠ i → M.role x = L.role x) : M.Claimed where
  booking k x a hk := by
    rw [hc] at hk
    split at hk
    · simp at hk
    · rename_i other
      have : a ≠ i := fun e => other (h.once k j x w i (e ▸ hk) hj)
      rw [hr a this]
      exact h.booking k x a hk
  once k y x z a hk hy := by
    rw [hc] at hk hy
    split at hk
    · simp at hk
    · split at hy
      · simp at hy
      · exact h.once k y x z a hk hy
  named a x hx := by
    have other : a ≠ i := by rintro rfl; simp [hi] at hx
    rw [hr a other] at hx
    obtain ⟨k, y, hk⟩ := h.named a x hx
    refine ⟨k, y, ?_⟩
    rw [hc, if_neg, hk]
    rintro rfl
    simp [hj] at hk
    exact other hk.2.symm

end

theorem Ledger.Leased.endWait (h : L.Leased) (j : WaitNo) : (L.endWait j).Leased := by
  cases hj : L.claim j with
  | none => rw [Ledger.endWait_of_none hj]; exact h
  | some x =>
    obtain ⟨w, i⟩ := x
    have off := h.claimed.on_none hj
    rw [Ledger.endWait_of_claim hj]
    refine ⟨h.held.congr (fun k => ?_) (fun x => ?_) (fun k x _ => ?_),
      h.claimed.close hj (fun k => by simp) (by simp) fun x hx => by simp [hx]⟩
    · simp only [Ledger.setClaim_record, Ledger.setRole_record, Ledger.setRecord_record]
      split
      · rename_i e; rw [e]
      · rfl
    · simp only [Ledger.setClaim_role, Ledger.setRole_role]
      split
      · rename_i e; rw [e, off]; rfl
      · rfl
    · simp only [Ledger.setClaim_role, Ledger.setRole_role]
      split
      · simp
      · exact .inl

theorem Ledger.Marked.endWait (h : L.Marked ns) (j : WaitNo) : (L.endWait j).Marked ns := by
  cases hj : L.claim j with
  | none => rw [Ledger.endWait_of_none hj]; exact h
  | some x =>
    rw [Ledger.endWait_of_claim hj]
    refine h.congr rfl (fun k => ?_) fun k _ => ?_ <;>
      simp only [Ledger.setClaim_record, Ledger.setRole_record, Ledger.setRecord_record] <;>
      split <;> rename_i e
    · rw [e]
    · rfl
    · rw [e]; exact id
    · exact id

/-- The wait's end at a resource of the list, or at a fence-spent one (R29). -/
theorem Ledger.Serviced.endWait (h : L.Serviced ns) (leased : L.Leased) (j : WaitNo)
    (hn : ∀ w i, L.claim j = some (w, i) → w.resource ∈ ns ∨ (L.record w.resource).fenceSpent = true) :
    (L.endWait j).Serviced ns := by
  cases hj : L.claim j with
  | none => rw [Ledger.endWait_of_none hj]; exact h
  | some x =>
    obtain ⟨w, i⟩ := x
    have off := leased.claimed.on_none hj
    have inactive : (L.role i).upgrades? = none := by
      by_contra hu
      obtain ⟨k, hk⟩ := Option.ne_none_iff_exists'.1 hu
      simp [Role.on_of_upgrades hk] at off
    rw [Ledger.endWait_of_claim hj]
    refine ⟨⟨fun k => ?_, fun k y => ?_, fun starting k => ?_⟩, h.upgrades.congr (fun k => ?_) (fun x => ?_)
      (fun x hx => ?_), fun k out => ?_⟩
    · simp only [Ledger.setClaim_record, Ledger.setRole_record, Ledger.setRecord_record]
      split
      · exact (h.queues.nodup _).erase j
      · exact h.queues.nodup k
    · simp only [Ledger.setClaim_record, Ledger.setRole_record, Ledger.setRecord_record, Ledger.setClaim_claim,
        Ledger.setRole_claim, Ledger.setRecord_claim]
      have mem := h.queues.mem k y
      by_cases hk : k = w.resource
      · rw [if_pos hk, ← hk, (h.queues.nodup k).mem_erase_iff, mem]
        by_cases hy : y = j <;> simp [hy]
      · rw [if_neg hk, mem]
        by_cases hy : y = j
        · subst hy; simp [hj, Ne.symm hk]
        · simp [hy]
    · simp only [Ledger.setClaim_record, Ledger.setRole_record, Ledger.setRecord_record]
      have empty := h.queues.starting starting
      split
      · simp [empty]
      · exact empty k
    · simp only [Ledger.setClaim_record, Ledger.setRole_record, Ledger.setRecord_record]
      split
      · rename_i e; rw [e]
      · rfl
    · simp only [Ledger.setClaim_role, Ledger.setRole_role, Ledger.setRecord_role]
      split
      · rename_i e; rw [e, inactive]; rfl
      · rfl
    · have : x ≠ i := by
        rintro rfl
        cases hr : L.role x <;> simp_all
      simpa [this] using hx
    · by_cases hk : k = w.resource
      · have spent : (L.record k).fenceSpent = true := by
          rcases hn w i hj with hin | spent
          · exact absurd (hk ▸ hin) out
          · rw [hk]; exact spent
        exact .of_spent (by simp [← hk, spent])
      · refine (h.heads k out).elsewhere leased.held (by simp [hk]) rfl (fun x hx => ?_) fun y _ z => ?_
        · have : x ≠ i := by rintro rfl; simp [off] at hx
          simp [this]
        · simp only [Ledger.setClaim_claim, Ledger.setRole_claim, Ledger.setRecord_claim]
          split
          · simp
          · exact id

/-! ### One lease changed (R32, R65, R69, R73, R85) -/

/-- A change of one live lease and of the record of its resource: no entry, claim or other slot or record changes, the
queue and the activation mark stay, and the slot is booked for nothing. -/
structure Ledger.OneLease (L M : Ledger) (i : SlotNo) (n : ResNo) : Prop where
  on : (L.role i).on? = some n
  part : M.part = L.part
  entry : M.entry = L.entry
  claim : M.claim = L.claim
  listed : M.listed = L.listed
  record : ∀ k, k ≠ n → M.record k = L.record k
  role : ∀ x, x ≠ i → M.role x = L.role x
  booking : (M.role i).booking? = none
  queue : (M.record n).queue = (L.record n).queue
  mark : (M.record n).activationPending = (L.record n).activationPending

section
variable {M : Ledger} (c : L.OneLease M i n)
include c

theorem Ledger.OneLease.claimed (h : L.Claimed) : M.Claimed :=
  h.congr c.claim fun x => by
    by_cases e : x = i
    · rw [e, c.booking, Role.booking_of_on c.on]
    · rw [c.role x e]

theorem Ledger.OneLease.queues (h : L.Queues) : M.Queues :=
  h.congr c.part c.claim fun k => by
    by_cases e : k = n
    · rw [e, c.queue]
    · rw [c.record k e]

/-- The heads of other resources wait still. -/
theorem Ledger.OneLease.heads {k : ResNo} (held : L.Held) (hk : k ≠ n) (h : L.HeadWaits k) : M.HeadWaits k :=
  h.elsewhere held (c.record k hk) (by rw [c.entry])
    (fun x hx => c.role x (by rintro rfl; exact hk (Option.some.inj (hx.symm.trans c.on))))
    fun y _ z => by rw [c.claim]; exact id

theorem Ledger.OneLease.marked (h : L.Marked ns) (hh : n ∈ ns ∨ (M.record n).holders = (L.record n).holders) :
    M.Marked ns :=
  h.congr c.listed
    (fun k => by
      by_cases e : k = n
      · rw [e, c.mark]
      · rw [c.record k e])
    fun k out => by
      by_cases e : k = n
      · rw [e] at out ⊢
        rw [hh.resolve_left out]
        exact id
      · rw [c.record k e]; exact id

/-- The holder lists stay, and the lease becomes EXCLUSIVE only as that of a sole holder. -/
theorem Ledger.OneLease.held (h : L.Held) (hh : (M.record n).holders = (L.record n).holders)
    (ho : (M.role i).on? = some n)
    (hm : (M.role i).mode? = some .exclusive →
      (L.role i).mode? = some .exclusive ∨ (L.record n).holders = [i]) : M.Held :=
  h.congr
    (fun k => by
      by_cases e : k = n
      · rw [e, hh]
      · rw [c.record k e])
    (fun x => by
      by_cases e : x = i
      · rw [e, ho, c.on]
      · rw [c.role x e])
    fun k x hx he => by
      by_cases e : x = i
      · subst e
        obtain rfl : k = n := Option.some.inj (((h.mem k x).1 hx).symm.trans c.on)
        exact hm he
      · rw [c.role x e] at he
        exact .inl he

/-- The slot leaves the holder list. -/
theorem Ledger.OneLease.held_erase (h : L.Held) (hh : (M.record n).holders = (L.record n).holders.erase i)
    (ho : (M.role i).on? = none) : M.Held := by
  have holders (k : ResNo) : ∀ x, x ∈ (M.record k).holders ↔ x ≠ i ∧ x ∈ (L.record k).holders := by
    intro x
    by_cases e : k = n
    · rw [e, hh, (h.nodup n).mem_erase_iff]
    · rw [c.record k e]
      refine ⟨fun hx => ⟨?_, hx⟩, And.right⟩
      rintro rfl
      exact e (Option.some.inj (((h.mem k x).1 hx).symm.trans c.on))
  refine ⟨fun k => ?_, fun k x => ?_, fun k x hx he => ?_⟩
  · by_cases e : k = n
    · rw [e, hh]; exact (h.nodup n).erase i
    · rw [c.record k e]; exact h.nodup k
  · rw [holders]
    by_cases e : x = i
    · simp [e, ho]
    · rw [c.role x e, h.mem]
      simp [e]
  · obtain ⟨other, hx⟩ := (holders k x).1 hx
    rw [c.role x other] at he
    have alone := h.alone k x hx he
    by_cases e : k = n
    · rw [e] at alone ⊢
      rw [hh, alone, List.erase_of_not_mem (by simpa using Ne.symm other)]
    · rw [c.record k e]; exact alone

/-- A pending upgrade of the slot is cleared with its deadline. -/
theorem Ledger.OneLease.upgrades (h : L.Upgrades) (hr : (M.role i).upgrades? = none)
    (hu : (M.record n).upgradePending =
      if (L.record n).upgradePending = some i then none else (L.record n).upgradePending) : M.Upgrades :=
  h.clear hr (fun k hk => Option.some.inj ((Role.on_of_upgrades hk).symm.trans c.on)) c.role fun k => by
    by_cases e : k = n
    · rw [e, hu]; simp
    · rw [c.record k e]; simp [e]

end

/-! ### The end of a lease (R32) -/

theorem Ledger.oneLease_endLease (h : (L.role i).on? = some n) : L.OneLease (L.endLease i) i n := by
  rw [Ledger.endLease_of_on h]
  exact ⟨h, rfl, rfl, rfl, rfl, fun k hk => by simp [hk], fun x hx => by simp [hx], by simp,
    by simp [Record.clearUpgrade], by simp [Record.clearUpgrade]⟩

theorem Ledger.Leased.endLease (h : L.Leased) (i : SlotNo) : (L.endLease i).Leased := by
  cases on : (L.role i).on? with
  | none => rw [Ledger.endLease_of_none on]; exact h
  | some n =>
    have c := Ledger.oneLease_endLease on
    refine ⟨c.held_erase h.held ?_ ?_, c.claimed h.claimed⟩ <;> rw [Ledger.endLease_of_on on] <;> simp

/-- A lease ends at a resource of the list. -/
theorem Ledger.Serviced.endLease (h : L.Serviced ns) (leased : L.Leased) (i : SlotNo)
    (hn : ∀ n, (L.role i).on? = some n → n ∈ ns) : (L.endLease i).Serviced ns := by
  cases on : (L.role i).on? with
  | none => rw [Ledger.endLease_of_none on]; exact h
  | some n =>
    have c := Ledger.oneLease_endLease on
    refine ⟨c.queues h.queues, c.upgrades h.upgrades ?_ ?_, fun k out => c.heads leased.held ?_ (h.heads k out)⟩
    · rw [Ledger.endLease_of_on on]; simp
    · rw [Ledger.endLease_of_on on]; simp [Record.clearUpgrade]
    · rintro rfl; exact out (hn k on)

theorem Ledger.Marked.endLease (h : L.Marked ns) (i : SlotNo) (hn : ∀ n, (L.role i).on? = some n → n ∈ ns) :
    (L.endLease i).Marked ns := by
  cases on : (L.role i).on? with
  | none => rw [Ledger.endLease_of_none on]; exact h
  | some n => exact (Ledger.oneLease_endLease on).marked h (.inl (hn n on))

/-! ### A deadline dropped (R69, R85) -/

theorem Ledger.oneLease_calm (h : (L.role i).on? = some n) : L.OneLease (L.calm i) i n := by
  rw [Ledger.calm_of_on h]
  exact ⟨h, rfl, rfl, rfl, rfl, fun k hk => by simp [hk], fun x hx => by simp [hx], by simp [Role.booking_of_on h],
    by simp [Record.clearUpgrade], by simp [Record.clearUpgrade]⟩

theorem Ledger.Leased.calm (h : L.Leased) (i : SlotNo) : (L.calm i).Leased := by
  cases on : (L.role i).on? with
  | none => rw [Ledger.calm_of_none on]; exact h
  | some n =>
    have c := Ledger.oneLease_calm on
    refine ⟨c.held h.held ?_ ?_ ?_, c.claimed h.claimed⟩ <;> rw [Ledger.calm_of_on on]
    · simp [Record.clearUpgrade]
    · simp [on]
    · intro he
      exact .inl (by simpa using he)

theorem Ledger.Marked.calm (h : L.Marked ns) (i : SlotNo) : (L.calm i).Marked ns := by
  cases on : (L.role i).on? with
  | none => rw [Ledger.calm_of_none on]; exact h
  | some n =>
    refine (Ledger.oneLease_calm on).marked h (.inr ?_)
    rw [Ledger.calm_of_on on]
    simp [Record.clearUpgrade]

/-- A lease whose upgrade is not pending is calm already; one whose upgrade is, calmed, may let a head be grantable. -/
theorem Ledger.Serviced.calm (h : L.Serviced ns) (leased : L.Leased) (i : SlotNo)
    (hn : ∀ n, (L.role i).on? = some n → (L.record n).upgradePending = some i → n ∈ ns) : (L.calm i).Serviced ns := by
  cases on : (L.role i).on? with
  | none => rw [Ledger.calm_of_none on]; exact h
  | some n =>
    have c := Ledger.oneLease_calm on
    refine ⟨c.queues h.queues, c.upgrades h.upgrades ?_ ?_, fun k out => ?_⟩
    · rw [Ledger.calm_of_on on]; simp
    · rw [Ledger.calm_of_on on]; simp [Record.clearUpgrade]
    · by_cases hk : k = n
      · subst hk
        have other : (L.record k).upgradePending ≠ some i := fun e => out (hn k on e)
        have record : (L.calm i).record = L.record := by
          funext x
          rw [Ledger.calm_of_on on]
          simp only [Ledger.setRole_record, Ledger.setRecord_record, Record.clearUpgrade, other, if_false]
          split
          · rename_i e; rw [e]
          · rfl
        intro j rest w x hq hj grantable
        rw [record] at hq
        refine h.heads k out j rest w x hq (c.claim ▸ hj) (grantable.back (by rw [record]) (by rw [c.entry]) ?_)
        intro y _
        rw [Ledger.calm_of_on on]
        simp only [Ledger.setRole_role, Ledger.setRecord_role]
        split
        · rename_i e; rw [e, Role.mode_calm]
        · rfl
      · exact c.heads leased.held hk (h.heads k out)

/-! ### An upgrade (R65, R68) -/

theorem Ledger.oneLease_upgrade (h : (L.role i).on? = some n) : L.OneLease (L.upgrade i n) i n :=
  ⟨h, rfl, rfl, rfl, rfl, fun k hk => by simp [Ledger.upgrade, hk], fun x hx => by simp [Ledger.upgrade, hx],
    by simp [Ledger.upgrade, Role.booking_of_on h], by simp [Ledger.upgrade], by simp [Ledger.upgrade]⟩

theorem Ledger.Leased.upgrade (h : L.Leased) (sole : (L.record n).holders = [i]) : (L.upgrade i n).Leased := by
  have on : (L.role i).on? = some n := (h.held.mem n i).1 (by simp [sole])
  have c := Ledger.oneLease_upgrade on
  refine ⟨c.held h.held (by simp [Ledger.upgrade]) ?_ fun _ => .inr sole, c.claimed h.claimed⟩
  simp [Ledger.upgrade, on]

theorem Ledger.Marked.upgrade (h : L.Marked ns) (on : (L.role i).on? = some n) : (L.upgrade i n).Marked ns :=
  (Ledger.oneLease_upgrade on).marked h (.inr (by simp [Ledger.upgrade]))

/-- The sole holder becomes EXCLUSIVE: its resource grants nothing. -/
theorem Ledger.Serviced.upgrade (h : L.Serviced ns) (leased : L.Leased) (sole : (L.record n).holders = [i]) :
    (L.upgrade i n).Serviced ns := by
  have on : (L.role i).on? = some n := (leased.held.mem n i).1 (by simp [sole])
  have c := Ledger.oneLease_upgrade on
  refine ⟨c.queues h.queues, c.upgrades h.upgrades (by simp [Ledger.upgrade]) ?_, fun k out => ?_⟩
  · have only (x : SlotNo) (hx : (L.record n).upgradePending = some x) : x = i := by
      have := (leased.held.mem n x).2 (Role.on_of_upgrades ((h.upgrades.named n x).1 hx))
      simpa [sole] using this
    simp only [Ledger.upgrade, Ledger.setRole_record, Ledger.setRecord_record, if_true]
    cases hu : (L.record n).upgradePending with
    | none => rfl
    | some x => simp [only x hu]
  · by_cases hk : k = n
    · subst hk
      refine .of_exclusive (i := i) (by simp [Ledger.upgrade, sole]) ?_
      cases hr : L.role i <;> simp [hr] at on
      simp [Ledger.upgrade, hr, Role.calm, Role.withMode]
    · exact c.heads leased.held hk (h.heads k out)

/-! ### A pending upgrade recorded (R66) -/

section
variable {u : Bool} (hr : L.role i = .holds n .shared u) (free : (L.record n).upgradePending = none)

/-- The upgrade of a lease becomes pending. -/
def Ledger.await (L : Ledger) (i : SlotNo) (n : ResNo) : Ledger :=
  (L.setRecord n { L.record n with upgradePending := some i }).setRole i (.holds n .shared true)

include hr

theorem Ledger.oneLease_await : L.OneLease (L.await i n) i n :=
  ⟨by rw [hr]; rfl, rfl, rfl, rfl, rfl, fun k hk => by simp [Ledger.await, hk], fun x hx => by simp [Ledger.await, hx],
    by simp [Ledger.await], by simp [Ledger.await], by simp [Ledger.await]⟩

theorem Ledger.Leased.await (h : L.Leased) : (L.await i n).Leased := by
  have c := Ledger.oneLease_await hr
  exact ⟨c.held h.held (by simp [Ledger.await]) (by simp [Ledger.await]) (by simp [Ledger.await]), c.claimed h.claimed⟩

theorem Ledger.Marked.await (h : L.Marked ns) : (L.await i n).Marked ns :=
  (Ledger.oneLease_await hr).marked h (.inr (by simp [Ledger.await]))

include free

theorem Ledger.Serviced.await (h : L.Serviced ns) (leased : L.Leased) : (L.await i n).Serviced ns := by
  have c := Ledger.oneLease_await hr
  refine ⟨c.queues h.queues, ⟨fun k x => ?_, fun x k hx => ?_⟩, fun k out => ?_⟩
  · have named := h.upgrades.named k x
    by_cases hk : k = n <;> by_cases hx : x = i
    · simp [Ledger.await, hk, hx]
    · rw [hk, free] at named
      simpa [Ledger.await, hk, hx, Ne.symm hx] using named
    · have other : (L.record k).upgradePending ≠ some i := by
        intro e
        have on := Role.on_of_upgrades ((h.upgrades.named k i).1 e)
        exact hk (Option.some.inj (on.symm.trans (by rw [hr]; rfl)))
      simp [Ledger.await, hk, hx, Ne.symm hk, other]
    · simpa [Ledger.await, hk, hx] using named
  · by_cases e : x = i
    · simp [Ledger.await, e]
    · rw [c.role x e] at hx ⊢
      exact h.upgrades.shared x k hx
  · by_cases hk : k = n
    · subst hk
      rintro j rest w x hq hj ⟨e, entry, spent, mark, admits⟩
      refine h.heads k out j rest w x (c.queue ▸ hq) hj ⟨e, entry, ?_, ?_, ?_⟩
      · simpa [Ledger.await] using spent
      · simpa [Ledger.await] using mark
      · cases hw : w.mode with
        | exclusive => rw [hw] at admits; simpa [Ledger.AdmitsMode, Ledger.await] using admits
        | shared =>
          rw [hw] at admits
          simpa [Ledger.await] using admits.2.2.2
    · exact c.heads leased.held hk (h.heads k out)

end

/-! ### A downgrade (R73) -/

section
variable (on : (L.role i).on? = some n)
include on

theorem Ledger.oneLease_downgrade : L.OneLease (L.setRole i ((L.role i).withMode .shared)) i n :=
  ⟨on, rfl, rfl, rfl, rfl, fun _ _ => rfl, fun x hx => by simp [hx], by simp [Role.booking_of_on on], rfl, rfl⟩

theorem Ledger.Leased.downgrade (h : L.Leased) : (L.setRole i ((L.role i).withMode .shared)).Leased := by
  have c := Ledger.oneLease_downgrade on
  refine ⟨c.held h.held rfl (by simp [on]) fun he => ?_, c.claimed h.claimed⟩
  rw [Ledger.setRole_role, if_pos rfl] at he
  have := Role.mode_withMode he
  simp at this

theorem Ledger.Marked.downgrade (h : L.Marked ns) : (L.setRole i ((L.role i).withMode .shared)).Marked ns :=
  (Ledger.oneLease_downgrade on).marked h (.inr rfl)

theorem Ledger.Serviced.downgrade (h : L.Serviced ns) (leased : L.Leased) (hn : n ∈ ns) :
    (L.setRole i ((L.role i).withMode .shared)).Serviced ns := by
  have c := Ledger.oneLease_downgrade on
  refine ⟨c.queues h.queues, h.upgrades.congr (fun _ => rfl) (fun x => ?_) (fun x hx => ?_),
    fun k out => c.heads leased.held (by rintro rfl; exact out hn) (h.heads k out)⟩
  · by_cases e : x = i <;> simp [e]
  · by_cases e : x = i
    · subst e
      cases hr : L.role x <;> simp_all [Role.withMode]
    · simpa [e] using hx

end

end Sys2Proof.Machine
end

section
/-! PROOFS. Grants, bookings, and the flags and entries of the records keep the laws on the ledger (R14, R22, R29, R42,
R60). -/

namespace Sys2Proof.Machine

variable {L M : Ledger} {ns : List ResNo} {i : SlotNo} {j : WaitNo} {n : ResNo} {m : Mode} {w : Wait}

/-! ### Grants (R22, R60) -/

section
variable (off : (L.role i).on? = none)

include off

/-- The heads of the other resources wait still: the slot granted held nothing. -/
theorem Ledger.HeadWaits.grant {k : ResNo} (h : L.HeadWaits k) (held : L.Held) (hk : k ≠ n) :
    (L.grant i n m).HeadWaits k :=
  h.elsewhere held (by simp [Ledger.grant, hk]) rfl
    (fun x hx => by
      have : x ≠ i := by rintro rfl; simp [off] at hx
      simp [Ledger.grant, this])
    fun _ _ _ => id

/-- The slot joins the holder list of a resource that is grantable for its mode. -/
theorem Ledger.Held.grant (h : L.Held) (g : L.Grantable n m) : (L.grant i n m).Held := by
  have out (k : ResNo) : i ∉ (L.record k).holders := fun hi => by simp [(h.mem k i).1 hi] at off
  have holders (k : ResNo) : ((L.grant i n m).record k).holders =
      if k = n then (L.record n).holders ++ [i] else (L.record k).holders := by
    simp only [Ledger.grant, Ledger.setRecord_record]
    split <;> rfl
  have role (x : SlotNo) : (L.grant i n m).role x = if x = i then .holds n m false else L.role x := by
    simp [Ledger.grant]
  refine ⟨fun k => ?_, fun k x => ?_, fun k x hx he => ?_⟩
  · rw [holders]
    split
    · exact List.nodup_append.2 ⟨h.nodup n, by simp, by rintro a ha _ hb rfl; exact out n (by simp_all)⟩
    · exact h.nodup k
  · rw [holders, role]
    have mem := h.mem k x
    by_cases hx : x = i <;> by_cases hk : k = n
    · simp [hx, hk]
    · simp [hx, hk, Ne.symm hk, out]
    · rw [hk] at mem; simp [hx, hk, mem]
    · simp [hx, hk, mem]
  · rw [holders] at hx ⊢
    rw [role] at he
    obtain ⟨e, -, -, -, admits⟩ := g
    by_cases hk : k = n
    · rw [if_pos hk] at hx ⊢
      by_cases hi : x = i
      · obtain rfl : m = .exclusive := by simpa [hi] using he
        rw [show (L.record n).holders = [] from admits, hi]
        rfl
      · rw [if_neg hi] at he
        have hx : x ∈ (L.record n).holders := by simpa [hi] using hx
        cases m with
        | exclusive => simp [show (L.record n).holders = [] from admits] at hx
        | shared => exact absurd he (admits.2.2.1 x hx)
    · rw [if_neg hk] at hx ⊢
      have : x ≠ i := by rintro rfl; exact out k hx
      rw [if_neg this] at he
      exact h.alone k x hx he

theorem Ledger.Upgrades.grant (h : L.Upgrades) : (L.grant i n m).Upgrades := by
  refine h.congr (fun k => ?_) (fun x => ?_) fun x hx => ?_
  · simp only [Ledger.grant, Ledger.setRecord_record]
    split
    · rename_i e; rw [e]
    · rfl
  · simp only [Ledger.grant, Ledger.setRecord_role, Ledger.setRole_role]
    split
    · rename_i e
      cases hr : L.role i <;> simp_all
    · rfl
  · have : x ≠ i := by rintro rfl; cases hr : L.role x <;> simp_all
    simpa [Ledger.grant, this] using hx

end

theorem Ledger.Marked.grant (h : L.Marked ns) (i : SlotNo) (n : ResNo) (m : Mode) : (L.grant i n m).Marked ns := by
  refine h.congr rfl (fun k => ?_) fun k _ => ?_ <;> simp only [Ledger.grant, Ledger.setRecord_record] <;> split
  · rename_i e; rw [e]
  · rfl
  · simp
  · exact id

/-- ACQUIRE grants a FREE slot (R41). -/
theorem Ledger.Leased.grant (h : L.Leased) (idle : L.role i = .idle) (g : L.Grantable n m) :
    (L.grant i n m).Leased := by
  refine ⟨h.held.grant (by rw [idle]; rfl) g, h.claimed.congr rfl fun x => ?_⟩
  simp only [Ledger.grant, Ledger.setRecord_role, Ledger.setRole_role]
  split
  · rename_i e; rw [e, idle]; rfl
  · rfl

/-- It does so where nobody waits. -/
theorem Ledger.Serviced.grant (h : L.Serviced ns) (leased : L.Leased) (idle : L.role i = .idle)
    (empty : (L.record n).queue = []) : (L.grant i n m).Serviced ns := by
  have off : (L.role i).on? = none := by rw [idle]; rfl
  refine ⟨h.queues.congr rfl rfl fun k => ?_, h.upgrades.grant off, fun k out => ?_⟩
  · simp only [Ledger.grant, Ledger.setRecord_record]
    split
    · rename_i e; rw [e]
    · rfl
  · by_cases hk : k = n
    · exact .of_empty (by simp [Ledger.grant, hk, empty])
    · exact (h.heads k out).grant off leased.held hk

theorem Ledger.record_grantWait (L : Ledger) (n : ResNo) (j : WaitNo) (m : Mode) (i : SlotNo) (k : ResNo) :
    (L.grantWait n j m i).record k =
      if k = n then
        { L.record n with
          holders := (L.record n).holders ++ [i], lastSeq := (L.record n).lastSeq + 1,
          queue := (L.record n).queue.erase j }
      else L.record k := by
  simp only [Ledger.grantWait, Ledger.grant, Ledger.setClaim_record, Ledger.setRecord_record, Ledger.setRole_record]
  split <;> simp

section
variable (hj : L.claim j = some (w, i))
include hj

theorem Ledger.Leased.grantWait (h : L.Leased) (g : L.Grantable n m) : (L.grantWait n j m i).Leased := by
  have off := h.claimed.on_none hj
  refine ⟨(h.held.grant off g).congr (fun k => ?_) (fun _ => rfl) fun _ _ _ => .inl, h.claimed.close hj
    (fun k => by simp [Ledger.grantWait, Ledger.grant]) (by simp [Ledger.grantWait, Ledger.grant])
    fun x hx => by simp [Ledger.grantWait, Ledger.grant, hx]⟩
  rw [Ledger.record_grantWait, Ledger.grant, Ledger.setRecord_record]
  split <;> rfl

omit hj in
theorem Ledger.Marked.grantWait (h : L.Marked ns) : (L.grantWait n j m i).Marked ns := by
  refine (h.grant i n m).congr rfl (fun k => ?_) fun k _ => ?_ <;>
    rw [Ledger.record_grantWait, Ledger.grant, Ledger.setRecord_record] <;> split
  · rfl
  · rfl
  · simp
  · exact id

/-- The grant of a queue's head may let the next one be grantable (R60). -/
theorem Ledger.Serviced.grantWait (h : L.Serviced ns) (leased : L.Leased) (hw : w.resource = n) (hn : n ∈ ns) :
    (L.grantWait n j m i).Serviced ns := by
  have off := leased.claimed.on_none hj
  have claim (k : WaitNo) : (L.grantWait n j m i).claim k = if k = j then none else L.claim k := by
    simp [Ledger.grantWait, Ledger.grant]
  have queue (k : ResNo) : ((L.grantWait n j m i).record k).queue =
      if k = n then (L.record n).queue.erase j else (L.record k).queue := by
    rw [Ledger.record_grantWait]
    split <;> rfl
  refine ⟨⟨fun k => ?_, fun k y => ?_, fun starting k => ?_⟩, ?_, fun k out => ?_⟩
  · rw [queue]
    split
    · exact (h.queues.nodup n).erase j
    · exact h.queues.nodup k
  · have mem := h.queues.mem k y
    rw [queue, claim]
    by_cases hk : k = n
    · rw [if_pos hk, ← hk, (h.queues.nodup k).mem_erase_iff, mem]
      by_cases hy : y = j <;> simp [hy]
    · rw [if_neg hk, mem]
      by_cases hy : y = j
      · subst hy; simp [hj, hw, Ne.symm hk]
      · simp [hy]
  · have empty := h.queues.starting starting
    rw [queue]
    split
    · simp [empty]
    · exact empty k
  · refine (h.upgrades.grant (m := m) off).congr (fun k => ?_) (fun _ => rfl) fun _ => id
    rw [Ledger.record_grantWait, Ledger.grant, Ledger.setRecord_record]
    split <;> rfl
  · have hk : k ≠ n := by rintro rfl; exact out hn
    refine (h.heads k out).elsewhere leased.held (by rw [Ledger.record_grantWait, if_neg hk]) rfl (fun x hx => ?_)
      fun y _ z => ?_
    · have : x ≠ i := by rintro rfl; simp [off] at hx
      simp [Ledger.grantWait, Ledger.grant, this]
    · rw [claim]
      split
      · simp
      · exact id

end

/-! ### A booking (R42, R46) -/

section
variable (idle : L.role i = .idle) (hj : L.claim j = none)

include idle

theorem Ledger.Leased.book (h : L.Leased) (hj : L.claim j = none) : (L.book w i j).Leased := by
  have role (x : SlotNo) : (L.book w i j).role x = if x = i then .booked w.resource w.client w.mode else L.role x := by
    simp [Ledger.book]
  have claim (k : WaitNo) : (L.book w i j).claim k = if k = j then some (w, i) else L.claim k := by
    simp [Ledger.book]
  have unclaimed (k : WaitNo) (x : Wait) : L.claim k ≠ some (x, i) := fun e => by
    have := h.claimed.booking k x i e
    simp [idle] at this
  refine ⟨h.held.congr (fun k => ?_) (fun x => ?_) fun k x _ => ?_, fun k x a hk => ?_, fun k y x z a hk hy => ?_,
    fun a x hx => ?_⟩
  · simp only [Ledger.book, Ledger.setRecord_record, Ledger.setClaim_record, Ledger.setRole_record]
    split
    · rename_i e; rw [e]
    · rfl
  · rw [role]
    split
    · rename_i e; rw [e, idle]; rfl
    · rfl
  · rw [role]
    split
    · simp
    · exact .inl
  · rw [claim] at hk
    rw [role]
    split at hk
    · obtain ⟨rfl, rfl⟩ : w = x ∧ i = a := by simpa using hk
      simp
    · have : a ≠ i := by rintro rfl; exact unclaimed k x hk
      rw [if_neg this]
      exact h.claimed.booking k x a hk
  · rw [claim] at hk hy
    split at hk <;> split at hy
    · rename_i e e'; rw [e, e']
    · obtain ⟨-, rfl⟩ : w = x ∧ i = a := by simpa using hk
      exact absurd hy (unclaimed y z)
    · obtain ⟨-, rfl⟩ : w = z ∧ i = a := by simpa using hy
      exact absurd hk (unclaimed k x)
    · exact h.claimed.once k y x z a hk hy
  · by_cases e : a = i
    · exact ⟨j, w, by rw [claim, if_pos rfl, e]⟩
    · rw [role, if_neg e] at hx
      obtain ⟨k, y, hk⟩ := h.claimed.named a x hx
      refine ⟨k, y, ?_⟩
      rw [claim, if_neg, hk]
      rintro rfl
      simp [hj] at hk

omit idle in
theorem Ledger.Marked.book (h : L.Marked ns) : (L.book w i j).Marked ns := by
  refine h.congr rfl (fun k => ?_) fun k _ => ?_ <;>
    simp only [Ledger.book, Ledger.setRecord_record, Ledger.setClaim_record, Ledger.setRole_record] <;>
    split <;> rename_i e
  · rw [e]
  · rfl
  · rw [e]; exact id
  · exact id

/-- A wait joins a queue outside a start-up; where it becomes the head, its resource is not grantable for it. -/
theorem Ledger.Serviced.book (h : L.Serviced ns) (leased : L.Leased) (hj : L.claim j = none)
    (started : L.part ≠ .starting) (waits : (L.record w.resource).queue = [] → ¬ L.Grantable w.resource w.mode) :
    (L.book w i j).Serviced ns := by
  have role (x : SlotNo) : (L.book w i j).role x = if x = i then .booked w.resource w.client w.mode else L.role x := by
    simp [Ledger.book]
  have claim (k : WaitNo) : (L.book w i j).claim k = if k = j then some (w, i) else L.claim k := by
    simp [Ledger.book]
  have record (k : ResNo) : (L.book w i j).record k =
      if k = w.resource then { L.record k with queue := (L.record k).queue ++ [j] } else L.record k := by
    simp only [Ledger.book, Ledger.setRecord_record, Ledger.setClaim_record, Ledger.setRole_record]
    split
    · rename_i e; rw [e]
    · rfl
  have out (k : ResNo) : j ∉ (L.record k).queue := fun e => by simpa [hj] using (h.queues.mem k j).1 e
  have off (k : ResNo) (x : SlotNo) (hx : (L.role x).on? = some k) : (L.book w i j).role x = L.role x := by
    rw [role, if_neg]
    rintro rfl
    simp [idle] at hx
  refine ⟨⟨fun k => ?_, fun k y => ?_, fun starting => absurd starting started⟩,
    h.upgrades.congr (fun k => ?_) (fun x => ?_) fun x hx => ?_, fun k hk => ?_⟩
  · rw [record]
    split
    · exact List.nodup_append.2 ⟨h.queues.nodup k, by simp, by rintro a ha _ hb rfl; exact out k (by simp_all)⟩
    · exact h.queues.nodup k
  · have mem := h.queues.mem k y
    rw [record, claim]
    by_cases hk : k = w.resource <;> by_cases hy : y = j
    · simp [hk, hy]
    · rw [hk] at mem; simp [hk, hy, mem]
    · simp [hk, hy, Ne.symm hk, out]
    · simp [hk, hy, mem]
  · rw [record]
    split <;> rfl
  · rw [role]
    split
    · rename_i e; rw [e, idle]; rfl
    · rfl
  · have : x ≠ i := by rintro rfl; simp [idle] at hx
    simpa [role, this] using hx
  · by_cases e : k = w.resource
    · intro y rest x a hq hy grantable
      have back : L.Grantable k x.mode := by
        refine grantable.back (by rw [record, if_pos e]) rfl fun b hb => ?_
        rw [off k b ((leased.held.mem k b).1 hb)]
      rw [record, if_pos e] at hq
      cases old : (L.record k).queue with
      | nil =>
        obtain ⟨rfl, -⟩ : j = y ∧ [] = rest := by simpa [old] using hq
        rw [claim, if_pos rfl] at hy
        obtain ⟨rfl, -⟩ : w = x ∧ i = a := by simpa using hy
        exact waits (e ▸ old) (e ▸ back)
      | cons z t =>
        obtain ⟨rfl, -⟩ : z = y ∧ t ++ [j] = rest := by simpa [old] using hq
        have other : z ≠ j := by rintro rfl; exact out k (by simp [old])
        rw [claim, if_neg other] at hy
        exact h.heads k hk z t x a old hy back
    · refine (h.heads k hk).elsewhere leased.held (by rw [record, if_neg e]) rfl (off k) fun y hy z => ?_
      have : y ≠ j := by rintro rfl; exact out k hy
      rw [claim, if_neg this]
      exact id

end

/-! ### Flags and entries (R12, R14, R16, R29) -/

/-- Between the two nothing changes but the entry, the flags and the sequence of one resource, and the list. -/
structure Ledger.OneFlag (L M : Ledger) (n : ResNo) : Prop where
  part : M.part = L.part
  role : M.role = L.role
  claim : M.claim = L.claim
  entry : ∀ k, k ≠ n → M.entry k = L.entry k
  record : ∀ k, k ≠ n → M.record k = L.record k
  holders : (M.record n).holders = (L.record n).holders
  queue : (M.record n).queue = (L.record n).queue
  upgrade : (M.record n).upgradePending = (L.record n).upgradePending

section
variable (c : L.OneFlag M n)
include c

/-- A field of the records that is the same at the one resource is the same at all. -/
theorem Ledger.OneFlag.field {α : Type} {f : Record → α} (h : f (M.record n) = f (L.record n)) (k : ResNo) :
    f (M.record k) = f (L.record k) := by
  by_cases e : k = n
  · rw [e, h]
  · rw [c.record k e]

theorem Ledger.OneFlag.leased (h : L.Leased) : M.Leased :=
  ⟨h.held.congr (c.field (f := Record.holders) c.holders) (fun i => by rw [c.role])
      fun _ i _ he => .inl (by rw [c.role] at he; exact he),
    h.claimed.congr c.claim fun i => by rw [c.role]⟩

theorem Ledger.OneFlag.serviced (h : L.Serviced ns) (leased : L.Leased) (hn : n ∈ ns ∨ M.HeadWaits n) :
    M.Serviced ns :=
  ⟨h.queues.congr c.part c.claim (c.field (f := Record.queue) c.queue),
    h.upgrades.congr (c.field (f := Record.upgradePending) c.upgrade) (fun i => by rw [c.role])
      fun i => by rw [c.role]; exact id,
    fun k out => by
      by_cases e : k = n
      · rw [e] at out ⊢
        exact hn.resolve_left out
      · exact (h.heads k out).elsewhere leased.held (c.record k e) (c.entry k e) (fun i _ => by rw [c.role])
          fun j _ x => by rw [c.claim]; exact id⟩

/-- The flag of the resource is NO. -/
theorem Ledger.OneFlag.marked_clear (h : L.Marked ns) (hl : ∀ k, k ≠ n → M.listed k = L.listed k)
    (hm : (M.record n).activationPending = false) : M.Marked ns where
  listed k x := by
    have e : k ≠ n := by rintro rfl; simp [hm] at x
    rw [hl k e]
    rw [c.record k e] at x
    exact h.listed k x
  held k out x := by
    have e : k ≠ n := by rintro rfl; simp [hm] at x
    rw [c.record k e] at x ⊢
    exact h.held k out x

end

end Sys2Proof.Machine
end

section
/-! PROOFS. What an operation keeps on the ledger, and what it leaves to a grant rule: the ends, the grant rule itself,
and activation (R14, R29, R51, R59, R60, R68). -/

namespace Sys2Proof.Machine

/-! ### Moves -/

/-- From `L` to `M` the lease law is kept; and where a grant, or an application, was due at the resources `ns` alone, it
is due at the resources `ms` alone. -/
def Ledger.Moves (ns ms : List ResNo) (L M : Ledger) : Prop :=
  L.Leased → M.Leased ∧ (L.Serviced ns → M.Serviced ms) ∧ (L.Marked ns → M.Marked ms)

theorem Ledger.Moves.refl {ns : List ResNo} {L : Ledger} : L.Moves ns ns L := fun h => ⟨h, id, id⟩

theorem Ledger.Moves.of_eq {ns : List ResNo} {L M : Ledger} (h : M = L) : L.Moves ns ns M := h ▸ .refl

theorem Ledger.Moves.trans {ns ms ks : List ResNo} {L M N : Ledger} (h : L.Moves ns ms M) (k : M.Moves ms ks N) :
    L.Moves ns ks N := fun leased =>
  have ⟨leased, serviced, marked⟩ := h leased
  have ⟨leased', serviced', marked'⟩ := k leased
  ⟨leased', serviced' ∘ serviced, marked' ∘ marked⟩

/-- A longer list of what is due. -/
theorem Ledger.Moves.grow {ns ms : List ResNo} {L : Ledger} (sub : ns ⊆ ms) : L.Moves ns ms L := fun h =>
  ⟨h, (·.mono sub), (·.mono sub)⟩

theorem Ledger.Moves.foldl {α : Type} {f : State → α → State} {ns : List ResNo}
    (hf : ∀ (t : State) (a : α), t.ledger.Moves ns ns (f t a).ledger) (l : List α) (s : State) :
    s.ledger.Moves ns ns (l.foldl f s).ledger := by
  induction l generalizing s with
  | nil => exact .refl
  | cons a l ih => exact (hf s a).trans (ih _)

variable {s : State} {ns : List ResNo}

/-! ### Ends of waits (R51) -/

/-- The wait's end is at a resource of the list, or at a fence-spent one. -/
def Ledger.EndsWithin (L : Ledger) (ns : List ResNo) (j : WaitNo) : Prop :=
  ∀ w i, L.claim j = some (w, i) → w.resource ∈ ns ∨ (L.record w.resource).fenceSpent = true

theorem Ledger.moves_endWait {L : Ledger} {j : WaitNo} (h : L.Serviced ns → L.EndsWithin ns j) :
    L.Moves ns ns (L.endWait j) := fun leased =>
  ⟨leased.endWait j, fun serviced => serviced.endWait leased j (h serviced), (·.endWait j)⟩

/-- An end leaves other claims, and the flags, as they were. -/
theorem Ledger.endWait_keeps (L : Ledger) (j : WaitNo) :
    (∀ k x, (L.endWait j).claim k = some x → L.claim k = some x) ∧ (L.endWait j).entry = L.entry
      ∧ ∀ n, ((L.endWait j).record n).fenceSpent = (L.record n).fenceSpent
        ∧ ((L.endWait j).record n).activationPending = (L.record n).activationPending
        ∧ ((L.endWait j).record n).queue.Sublist (L.record n).queue := by
  cases hj : L.claim j with
  | none => rw [Ledger.endWait_of_none hj]; exact ⟨fun _ _ => id, rfl, fun n => ⟨rfl, rfl, .refl _⟩⟩
  | some x =>
    rw [Ledger.endWait_of_claim hj]
    refine ⟨fun k x => ?_, rfl, fun n => ?_⟩
    · simp only [Ledger.setClaim_claim, Ledger.setRole_claim, Ledger.setRecord_claim]
      split
      · simp
      · exact id
    · simp only [Ledger.setClaim_record, Ledger.setRole_record, Ledger.setRecord_record]
      split
      · rename_i e; subst e; exact ⟨rfl, rfl, List.erase_sublist⟩
      · exact ⟨rfl, rfl, .refl _⟩

theorem Ledger.EndsWithin.endWait {L : Ledger} {j : WaitNo} (h : L.EndsWithin ns j) (k : WaitNo) :
    (L.endWait k).EndsWithin ns j := by
  obtain ⟨claim, -, flags⟩ := L.endWait_keeps k
  intro w i hj
  rw [(flags w.resource).1]
  exact h w i (claim j _ hj)

/-- Waits that end, or are passed over, one after the other. -/
theorem moves_endWaits {f : State → WaitNo → State}
    (hf : ∀ t j, (f t j).ledger = t.ledger ∨ (f t j).ledger = t.ledger.endWait j) (js : List WaitNo) (s : State)
    (h : s.ledger.Serviced ns → ∀ j ∈ js, s.ledger.EndsWithin ns j) :
    s.ledger.Moves ns ns (js.foldl f s).ledger := by
  have leased (t : State) (j : WaitNo) (h : t.ledger.Leased) : (f t j).ledger.Leased := by
    rcases hf t j with e | e <;> rw [e]
    · exact h
    · exact h.endWait j
  have marked (t : State) (j : WaitNo) (h : t.ledger.Marked ns) : (f t j).ledger.Marked ns := by
    rcases hf t j with e | e <;> rw [e]
    · exact h
    · exact h.endWait j
  refine fun start => ⟨List.foldlRecOn js f start fun t h j _ => leased t j h, fun serviced => ?_,
    fun start => List.foldlRecOn js f start fun t h j _ => marked t j h⟩
  replace h := h serviced
  induction js generalizing s with
  | nil => exact serviced
  | cons j js ih =>
    refine ih (f s j) (leased s j start) ?_ fun k hk => ?_ <;> rcases hf s j with e | e <;> rw [e]
    · exact serviced
    · exact serviced.endWait start j (h j List.mem_cons_self)
    · exact h k (List.mem_cons_of_mem j hk)
    · exact (h k (List.mem_cons_of_mem j hk)).endWait j

/-- The waits of a queue end within any list that has its resource. -/
theorem Ledger.Queues.endsWithin {L : Ledger} (h : L.Queues) {n : ResNo} {j : WaitNo} (hj : j ∈ (L.record n).queue)
    (hn : n ∈ ns ∨ (L.record n).fenceSpent = true) : L.EndsWithin ns j := by
  intro w i claim
  obtain rfl : w.resource = n := by simpa [claim] using (h.mem n j).1 hj
  exact hn

/-! ### Ends of leases (R32) -/

theorem Ledger.moves_endLease {L : Ledger} {i : SlotNo} (h : ∀ n, (L.role i).on? = some n → n ∈ ns) :
    L.Moves ns ns (L.endLease i) := fun leased =>
  ⟨leased.endLease i, fun serviced => serviced.endLease leased i h, (·.endLease i h)⟩

/-- No lease comes to be held by an end or a revocation. -/
theorem Ledger.on_endLease {L : Ledger} {i k : SlotNo} {n : ResNo} (h : ((L.endLease i).role k).on? = some n) :
    (L.role k).on? = some n := by
  cases on : (L.role i).on? with
  | none => rwa [Ledger.endLease_of_none on] at h
  | some m =>
    rw [Ledger.endLease_of_on on, Ledger.setRole_role, Ledger.setRecord_role] at h
    split at h
    · simp at h
    · exact h

theorem Ledger.on_calm (L : Ledger) (i k : SlotNo) : ((L.calm i).role k).on? = (L.role k).on? := by
  cases on : (L.role i).on? with
  | none => rw [Ledger.calm_of_none on]
  | some m =>
    rw [Ledger.calm_of_on on, Ledger.setRole_role, Ledger.setRecord_role]
    split
    · rename_i e; rw [e, Role.on_calm]
    · rfl

/-- Leases that end one after the other. -/
theorem moves_endLeases {f : State → SlotNo → State} (hf : ∀ t i, (f t i).ledger = t.ledger.endLease i)
    (ls : List SlotNo) (s : State) (h : ∀ i ∈ ls, ∀ n, (s.ledger.role i).on? = some n → n ∈ ns) :
    s.ledger.Moves ns ns (ls.foldl f s).ledger := by
  induction ls generalizing s with
  | nil => exact .refl
  | cons i ls ih =>
    refine Ledger.Moves.trans (M := (f s i).ledger) ?_ (ih _ fun k hk n on => ?_)
    · rw [hf]; exact Ledger.moves_endLease (h i List.mem_cons_self)
    · rw [hf] at on
      exact h k (List.mem_cons_of_mem i hk) n (Ledger.on_endLease on)

/-! ### Pending upgrades cleared (R69) -/

/-- A pending upgrade is that of a lease on its resource, or the upgrade law does not hold. -/
theorem moves_clearUpgrade {n : ResNo} (hn : n ∈ ns) : s.ledger.Moves ns ns (s.clearUpgrade n).ledger := by
  cases hu : (s.record n).upgradePending with
  | none => exact .of_eq (ledger_clearUpgrade_none s hu)
  | some i =>
    intro leased
    rw [ledger_clearUpgrade_some s hu]
    have holders (k : ResNo) : (((s.ledger.setRecord n ((s.record n).clearUpgrade i)).setRole i
        (s.ledger.role i).calm).record k).holders = (s.ledger.record k).holders := by
      simp only [Ledger.setRole_record, Ledger.setRecord_record, Record.clearUpgrade]
      split
      · rename_i e; rw [e]; rfl
      · rfl
    refine ⟨⟨leased.held.congr holders (fun x => ?_) fun k x _ => ?_, leased.claimed.congr rfl fun x => ?_⟩,
      fun serviced => ?_, fun marked => marked.congr rfl (fun k => ?_) fun k _ => by rw [holders]; exact id⟩
    · simp only [Ledger.setRole_role, Ledger.setRecord_role]
      split
      · rename_i e; rw [e, Role.on_calm]
      · rfl
    · simp only [Ledger.setRole_role, Ledger.setRecord_role]
      split
      · rename_i e; rw [e, Role.mode_calm]; exact .inl
      · exact .inl
    · simp only [Ledger.setRole_role, Ledger.setRecord_role]
      split
      · rename_i e; rw [e, Role.booking_calm]
      · rfl
    · have on := Role.on_of_upgrades ((serviced.upgrades.named n i).1 hu)
      have calmed := serviced.calm leased i fun k hk _ => by
        obtain rfl : n = k := Option.some.inj (on.symm.trans hk)
        exact hn
      rw [Ledger.calm_of_on on] at calmed
      exact calmed
    · simp only [Ledger.setRole_record, Ledger.setRecord_record, Record.clearUpgrade]
      split
      · rename_i e; rw [e]; rfl
      · rfl

theorem moves_endUpgrade {n : ResNo} (hn : n ∈ ns) (cause : UpgradeEndCause) :
    s.ledger.Moves ns ns (s.endUpgrade n cause).ledger := by
  rw [ledger_endUpgrade]
  exact moves_clearUpgrade hn

/-! ### Exhaustion (R29) -/

/-- The event that issues the last sequence ends the waits of a resource that grants nothing any more. -/
theorem moves_exhaust (s : State) (n : ResNo) : s.ledger.Moves ns ns (s.exhaust n).ledger := by
  by_cases last : (s.record n).lastSeq = 65535
  · rw [State.exhaust_of_last last]
    have flag : s.ledger.OneFlag (s.setRecord n { s.record n with fenceSpent := true }).ledger n := by
      rw [ledger_setRecord]
      exact ⟨rfl, rfl, rfl, fun _ _ => rfl, fun k hk => by simp [hk], by simp, by simp, by simp⟩
    have spent : ((s.setRecord n { s.record n with fenceSpent := true }).ledger.record n).fenceSpent = true := by simp
    have spend : s.ledger.Moves ns ns (s.setRecord n { s.record n with fenceSpent := true }).ledger := fun leased =>
      ⟨flag.leased leased, fun serviced => flag.serviced serviced leased (.inr (.of_spent spent)), fun marked =>
        marked.congr rfl
          (flag.field (f := Record.activationPending) (by simp))
          fun k _ => by rw [flag.field (f := Record.holders) flag.holders k]; exact id⟩
    refine spend.trans (moves_endWaits (fun t j => .inr (ledger_endWait t _ j)) _ _ fun serviced j hj =>
      serviced.queues.endsWithin (n := n) ?_ (.inr spent))
    simpa using hj
  · exact .of_eq (by rw [State.exhaust_of_ne last])

/-- Exhaustion leaves the flags but the fence-spent one, and no queue grows by it. -/
theorem exhaust_keeps (s : State) (n k : ResNo) :
    ((s.exhaust n).record k).activationPending = (s.record k).activationPending
      ∧ ((s.exhaust n).record k).queue.Sublist (s.record k).queue := by
  by_cases last : (s.record n).lastSeq = 65535
  · rw [State.exhaust_of_last last]
    have fold (js : List WaitNo) (t : State) :
        ((t.endWaits .fenceSpent js).record k).activationPending = (t.record k).activationPending
          ∧ ((t.endWaits .fenceSpent js).record k).queue.Sublist (t.record k).queue := by
      induction js generalizing t with
      | nil => exact ⟨rfl, .refl _⟩
      | cons j js ih =>
        obtain ⟨mark, queue⟩ := ih (t.endWait .fenceSpent j)
        obtain ⟨-, -, keeps⟩ := t.ledger.endWait_keeps j
        obtain ⟨-, mark', queue'⟩ := keeps k
        rw [← ledger_endWait t .fenceSpent] at mark' queue'
        exact ⟨mark.trans mark', queue.trans queue'⟩
    obtain ⟨mark, queue⟩ := fold (s.record n).queue (s.setRecord n { s.record n with fenceSpent := true })
    rw [State.record_setRecord] at mark queue
    split at mark
    · rename_i e
      rw [if_pos e] at queue
      subst e
      exact ⟨mark, queue⟩
    · rename_i e
      rw [if_neg e] at queue
      exact ⟨mark, queue⟩
  · rw [State.exhaust_of_ne last]
    exact ⟨rfl, .refl _⟩

/-! ### The grant rule (R59, R60, R68) -/

/-- A pending upgrade whose slot is the sole holder is granted: the resource is then EXCLUSIVE, or fence spent. -/
theorem moves_serveUpgrade (s : State) (n : ResNo) : s.ledger.Moves ns ns (s.serveUpgrade n).ledger := by
  simp only [State.serveUpgrade]
  split
  · exact .refl
  · rename_i i _
    split
    · rename_i sole
      refine Ledger.Moves.trans (M := ((s.upgradeSlot i n).offer i .upgraded).ledger) ?_ (moves_exhaust _ n)
      rw [ledger_offer, ledger_upgradeSlot]
      exact fun leased => ⟨leased.upgrade sole, fun serviced => serviced.upgrade leased sole,
        fun marked => marked.upgrade ((leased.held.mem n i).1 (by simp [sole]))⟩
    · exact .refl

theorem serveUpgrade_keeps (s : State) (n : ResNo) :
    ((s.serveUpgrade n).record n).activationPending = (s.record n).activationPending
      ∧ ((s.serveUpgrade n).record n).queue.length ≤ (s.record n).queue.length := by
  simp only [State.serveUpgrade]
  split
  · exact ⟨rfl, le_rfl⟩
  · rename_i i _
    split
    · obtain ⟨mark, queue⟩ := exhaust_keeps ((s.upgradeSlot i n).offer i .upgraded) n n
      have same : ((s.upgradeSlot i n).offer i .upgraded).ledger.record n = (s.ledger.upgrade i n).record n := by
        rw [ledger_offer, ledger_upgradeSlot]
      rw [State.ledger_record] at same
      rw [same] at mark queue
      simp only [Ledger.upgrade, Ledger.setRole_record, Ledger.setRecord_record, if_true] at mark queue
      exact ⟨mark, queue.length_le⟩
    · exact ⟨rfl, le_rfl⟩

/-- What it takes for the head of a queue to be granted (R60). -/
theorem grantHead_some {t : State} {n : ResNo} (h : s.grantHead? n = some t) :
    ∃ j rest w r i, (s.record n).queue = j :: rest ∧ s.wait j = .queued w r i ∧ s.grantable n w.mode = true
      ∧ t = s.grantWait n j w i := by
  simp only [State.grantHead?] at h
  split at h
  · simp at h
  · rename_i j rest hq
    split at h
    · rename_i w r i hj
      split at h
      · rename_i g
        exact ⟨j, rest, w, r, i, hq, hj, g, (Option.some.inj h).symm⟩
      · simp at h
    all_goals simp at h

/-- A head that is not granted waits. -/
theorem headWaits_of_grantHead_none {n : ResNo} (h : s.grantHead? n = none) : s.ledger.HeadWaits n := by
  rw [headWaits_iff]
  intro j rest w r i hq hj
  simpa [State.grantHead?, hq, hj] using h

theorem moves_grantHead {t : State} {n : ResNo} (h : s.grantHead? n = some t) (hn : n ∈ ns) :
    s.ledger.Moves ns ns t.ledger := by
  obtain ⟨j, rest, w, r, i, hq, hj, g, rfl⟩ := grantHead_some h
  obtain ⟨u, e, granted⟩ := ledger_grantWait s n j w i
  rw [e]
  refine Ledger.Moves.trans (M := u.ledger) ?_ (moves_exhaust u n)
  rw [granted]
  have claim := claim_of_queued hj
  refine fun leased => ⟨leased.grantWait claim ((grantable_iff n w.mode).1 g), fun serviced => ?_, (·.grantWait)⟩
  have queued := (serviced.queues.mem n j).1 (by simp [hq])
  rw [claim] at queued
  exact serviced.grantWait claim leased (Option.some.inj queued) hn

/-- The queue of a head that is granted gets shorter. -/
theorem grantHead_keeps {t : State} {n : ResNo} (h : s.grantHead? n = some t) :
    (t.record n).activationPending = (s.record n).activationPending
      ∧ (t.record n).queue.length < (s.record n).queue.length := by
  obtain ⟨j, rest, w, r, i, hq, hj, -, rfl⟩ := grantHead_some h
  obtain ⟨u, e, granted⟩ := ledger_grantWait s n j w i
  obtain ⟨mark, queue⟩ := exhaust_keeps u n n
  have record : u.record n = (s.ledger.grantWait n j w.mode i).record n := by rw [← granted]; rfl
  rw [record, Ledger.record_grantWait, if_pos rfl] at mark queue
  rw [e]
  refine ⟨mark, Nat.lt_of_le_of_lt queue.length_le ?_⟩
  simp [hq]

/-- Granting heads goes on until the head waits (R59, step 3). -/
theorem moves_grantHeads {n : ResNo} (fuel : Nat) (s : State) (hf : (s.record n).queue.length ≤ fuel)
    (hm : (s.record n).activationPending = false) :
    s.ledger.Moves (n :: ns) ns (State.grantHeads fuel n s).ledger := by
  have stop {t : State} (hm : (t.record n).activationPending = false) (head : t.ledger.HeadWaits n) :
      t.ledger.Moves (n :: ns) ns t.ledger := fun leased =>
    ⟨leased, fun serviced => serviced.settle fun k hk out => by
        obtain rfl : k = n := (List.mem_cons.1 hk).resolve_right out
        exact head,
      fun marked => marked.settle fun k hk out x => by
        obtain rfl : k = n := (List.mem_cons.1 hk).resolve_right out
        simp [hm] at x⟩
  induction fuel generalizing s with
  | zero => exact stop hm (.of_empty (List.length_eq_zero_iff.1 (Nat.le_zero.1 hf)))
  | succ fuel ih =>
    simp only [State.grantHeads]
    split
    · rename_i h
      exact stop hm (headWaits_of_grantHead_none h)
    · rename_i t h
      obtain ⟨mark, queue⟩ := grantHead_keeps h
      exact (moves_grantHead h List.mem_cons_self).trans (ih t (by omega) (mark.trans hm))

/-- Steps 2 and 3 of the grant rule, past its first step (R59). -/
theorem moves_serve {n : ResNo} (s : State) (hm : (s.record n).activationPending = false) :
    s.ledger.Moves (n :: ns) ns (s.serve n).ledger := by
  obtain ⟨mark, queue⟩ := serveUpgrade_keeps s n
  exact (moves_serveUpgrade s n).trans (moves_grantHeads _ _ queue (mark.trans hm))

/-! ### Activation (R14) -/

/-- The re-check of one wait (R14, step 2). -/
def State.recheckWait (t : State) (image : Entry) (j : WaitNo) : State :=
  match t.recheckOf image j with
  | some cause => t.endWait cause j
  | none => t

theorem State.recheck_eq (s : State) (n : ResNo) (image : Entry) :
    s.recheck n image = (s.recheckEnds n image).foldl (fun t j => t.recheckWait image j) s := rfl

theorem ledger_recheckWait (image : Entry) (t : State) (j : WaitNo) :
    (t.recheckWait image j).ledger = t.ledger ∨ (t.recheckWait image j).ledger = t.ledger.endWait j := by
  simp only [State.recheckWait]
  split
  · exact .inr (ledger_endWait t _ j)
  · exact .inl rfl

/-- The re-check ends waits of the resource alone. -/
theorem moves_recheck {n : ResNo} (s : State) (image : Entry) (hn : n ∈ ns) :
    s.ledger.Moves ns ns (s.recheck n image).ledger :=
  moves_endWaits (ledger_recheckWait image) _ _ fun serviced _ hj =>
    serviced.queues.endsWithin (List.mem_of_mem_filter hj) (.inl hn)

theorem recheck_keeps (s : State) (n : ResNo) (image : Entry) (k : ResNo) :
    ((s.recheck n image).record k).activationPending = (s.record k).activationPending := by
  rw [State.recheck_eq]
  refine List.foldlRecOn (motive := fun t : State => (t.record k).activationPending = (s.record k).activationPending)
    _ _ rfl fun t h j _ => ?_
  rw [← State.ledger_record]
  rcases ledger_recheckWait image t j with e | e <;> rw [e]
  · exact h
  · rw [((t.ledger.endWait_keeps j).2.2 k).2.1]
    exact h

/-- The image comes into force and the mark is NO (R14, step 1). -/
theorem moves_putInForce {n : ResNo} (s : State) (image : Entry) (hn : n ∈ ns) :
    s.ledger.Moves ns ns (s.putInForce n image).ledger := by
  have flag : s.ledger.OneFlag (s.putInForce n image).ledger n := by
    rw [State.putInForce, ledger_setRecord, ledger_setEntry]
    exact ⟨rfl, rfl, rfl, fun k hk => by simp [hk], fun k hk => by simp [hk], by simp, by simp, by simp⟩
  exact fun leased => ⟨flag.leased leased, fun serviced => flag.serviced serviced leased (.inl hn),
    fun marked => flag.marked_clear marked (fun _ _ => rfl) (by simp [State.putInForce])⟩

/-- The PENDING entries of one resource leave the list or are APPLIED, where its mark is NO. -/
theorem moves_unlist {n : ResNo} {l : List Activation} (s : State) (hm : (s.record n).activationPending = false)
    (h : ∀ k, k ≠ n → (l.find? fun a => a.pendingFor k).isSome = (s.pendingEntry k).isSome) :
    s.ledger.Moves ns ns (s.setActivations l).ledger := by
  have flag : s.ledger.OneFlag (s.setActivations l).ledger n :=
    ⟨rfl, rfl, rfl, fun _ _ => rfl, fun _ _ => rfl, rfl, rfl, rfl⟩
  exact fun leased => ⟨flag.leased leased,
    fun serviced => flag.serviced serviced leased
      (if hin : n ∈ ns then .inl hin else .inr (serviced.heads n hin)),
    fun marked => flag.marked_clear marked h hm⟩

theorem Activation.pendingFor_other {a : Activation} {n k : ResNo} (hk : k ≠ n) (h : a.pendingFor n = true) :
    a.pendingFor k = false := by
  simp only [Activation.pendingFor, Bool.and_eq_true, decide_eq_true_eq] at h
  simp [Activation.pendingFor, h.1, Ne.symm hk]

theorem find_dropPending {n k : ResNo} (hk : k ≠ n) (l : List Activation) :
    ((dropPending n l).find? fun a => a.pendingFor k).isSome = (l.find? fun a => a.pendingFor k).isSome := by
  rw [Bool.eq_iff_iff, List.find?_isSome, List.find?_isSome]
  constructor
  · rintro ⟨a, ha, pending⟩
    exact ⟨a, List.mem_of_mem_filter ha, pending⟩
  · rintro ⟨a, ha, pending⟩
    exact ⟨a, by simp [dropPending, ha, Activation.pendingFor_other hk.symm pending], pending⟩

theorem find_markApplied {n k : ResNo} (hk : k ≠ n) (c : Nat) (l : List Activation) :
    ((markApplied n c l).find? fun a => a.pendingFor k).isSome = (l.find? fun a => a.pendingFor k).isSome := by
  rw [Bool.eq_iff_iff, List.find?_isSome, List.find?_isSome]
  constructor
  · rintro ⟨b, hb, pending⟩
    obtain ⟨a, ha, rfl⟩ := List.mem_map.1 hb
    split at pending
    · simp [Activation.pendingFor] at pending
    · exact ⟨a, ha, pending⟩
  · rintro ⟨a, ha, pending⟩
    exact ⟨a, List.mem_map.2 ⟨a, ha, by simp [Activation.pendingFor_other hk.symm pending]⟩, pending⟩

/-- A pending activation is applied: what it drained, it serves (R14). -/
theorem moves_applyPending {n : ResNo} (s : State) (image : Entry) :
    s.ledger.Moves (n :: ns) ns (s.applyPending n image).ledger := by
  simp only [State.applyPending, ledger_offerActivated]
  generalize ((s.putInForce n image).recheckEnds n image).length = count
  have forced := moves_putInForce (ns := n :: ns) s image List.mem_cons_self
  have checked := moves_recheck (ns := n :: ns) (s.putInForce n image) image List.mem_cons_self
  have mark := recheck_keeps (s.putInForce n image) n image n
  replace mark : (((s.putInForce n image).recheck n image).record n).activationPending = false :=
    mark.trans (by simp [State.putInForce, State.record_setRecord])
  refine (forced.trans checked).trans ?_
  generalize (s.putInForce n image).recheck n image = t at mark ⊢
  exact (moves_unlist t mark fun k hk => find_markApplied hk count _).trans (moves_serve _ mark)

/-- An activation is applied at once, and leaves the list (R12, step 4). -/
theorem moves_applyNow {n : ResNo} (s : State) (image : Entry) :
    s.ledger.Moves (n :: ns) ns (s.applyNow n image).ledger := by
  simp only [State.applyNow]
  have forced := moves_putInForce (ns := n :: ns) s image List.mem_cons_self
  have checked := moves_recheck (ns := n :: ns) (s.putInForce n image) image List.mem_cons_self
  have mark := recheck_keeps (s.putInForce n image) n image n
  replace mark : (((s.putInForce n image).recheck n image).record n).activationPending = false :=
    mark.trans (by simp [State.putInForce, State.record_setRecord])
  refine (forced.trans checked).trans ?_
  generalize (s.putInForce n image).recheck n image = t at mark ⊢
  exact (moves_unlist t mark fun k hk => find_dropPending hk _).trans (moves_serve _ mark)

/-- A resource whose activation is pending grants nothing, and while it has a holder nothing is applied (R13, R14). -/
theorem Ledger.moves_of_mark {L : Ledger} {n : ResNo} (hm : (L.record n).activationPending = true)
    (hh : (L.record n).holders ≠ [] ∨ L.listed n = false) : L.Moves (n :: ns) ns L := fun leased =>
  ⟨leased, fun serviced => serviced.settle fun k hk out => by
      obtain rfl : k = n := (List.mem_cons.1 hk).resolve_right out
      exact .of_mark hm,
    fun marked => marked.settle fun k hk out _ => by
      obtain rfl : k = n := (List.mem_cons.1 hk).resolve_right out
      refine hh.resolve_right fun none => ?_
      simp [marked.listed k hm] at none⟩

/-- The grant rule of a resource leaves nothing due there (R59). -/
theorem moves_grantRule (s : State) (n : ResNo) : s.ledger.Moves (n :: ns) ns (s.grantRule n).ledger := by
  simp only [State.grantRule]
  split
  · rename_i mark
    split
    · split
      · exact moves_applyPending s _
      · rename_i none
        exact Ledger.moves_of_mark mark (.inr (by simp [none]))
    · rename_i held
      exact Ledger.moves_of_mark mark (.inl (by simpa using held))
  · rename_i mark
    exact moves_serve s (by simpa using mark)

theorem moves_grantRules (ns : List ResNo) (s : State) : s.ledger.Moves ns [] (s.grantRules ns).ledger := by
  induction ns generalizing s with
  | nil => exact .refl
  | cons n ns ih => exact (moves_grantRule s n).trans (ih _)

end Sys2Proof.Machine
end

section
/-! PROOFS. What a tick does at one slot leaves elsewhere: ends of leases, warnings and the notices they offer
(R32, R79, R80, R111 to R113). -/

namespace Sys2Proof.Machine

variable {s t : State} {i : SlotNo}

/-- What a change at slot `i` leaves: the other slots, the directory, and the notices queued and owed. -/
structure OnlyAt (i : SlotNo) (s t : State) : Prop where
  slot : ∀ k, k ≠ i → t.slot k = s.slot k
  entries : t.entries = s.entries
  messages : ∀ p m, m ∈ (s.port p).queue → m ∈ (t.port p).queue
  owed : ∀ p x, x ∈ (s.side p).owed → x ∈ (t.side p).owed

theorem OnlyAt.refl : OnlyAt i s s := ⟨fun _ _ => rfl, rfl, fun _ _ => id, fun _ _ => id⟩

theorem OnlyAt.trans {u : State} (h : OnlyAt i s t) (k : OnlyAt i t u) : OnlyAt i s u where
  slot j hj := (k.slot j hj).trans (h.slot j hj)
  entries := k.entries.trans h.entries
  messages p m x := k.messages p m (h.messages p m x)
  owed p x y := k.owed p x (h.owed p x y)

theorem onlyAt_setSlot (i : SlotNo) (v : Slot) : OnlyAt i s (s.setSlot i v) :=
  ⟨fun k hk => by rw [State.slot_setSlot, if_neg hk], rfl, fun _ _ => id, fun _ _ => id⟩

theorem onlyAt_setRecord (n : ResNo) (r : Record) : OnlyAt i s (s.setRecord n r) :=
  ⟨fun _ _ => rfl, rfl, fun _ _ => id, fun _ _ => id⟩

theorem onlyAt_pushMessage (p : PortId) (m : Message) : OnlyAt i s (s.pushMessage p m) := by
  refine ⟨fun _ _ => rfl, rfl, fun q x h => ?_, fun _ _ => id⟩
  rw [State.port_pushMessage]
  split
  · rename_i e
    exact e ▸ List.mem_append_left _ h
  · exact h

theorem onlyAt_joinOwed (p : CPort) (r : Ref) : OnlyAt i s (s.joinOwed p r) := by
  refine ⟨fun _ _ => rfl, rfl, fun _ _ => id, fun q x h => ?_⟩
  rw [State.side_joinOwed]
  split
  · rename_i e
    exact e ▸ List.mem_append_left _ h
  · exact h

theorem onlyAt_offer (i : SlotNo) (k : Owed) : OnlyAt i s (s.offer i k) := by
  simp only [State.offer]
  split
  · exact .refl
  · split
    · exact onlyAt_pushMessage _ _
    · split
      · exact (onlyAt_setSlot i _).trans (onlyAt_joinOwed _ _)
      · exact onlyAt_setSlot i _

theorem onlyAt_endLease (cause : EndCause) (i : SlotNo) : OnlyAt i s (s.endLease cause i) := by
  simp only [State.endLease]
  split
  · exact .refl
  · rename_i l _
    have leaves : OnlyAt i s (s.leaveHolders i l.resource) := onlyAt_setRecord _ _
    split
    · exact leaves.trans ((onlyAt_pushMessage _ _).trans (onlyAt_setSlot i _))
    · split
      · exact leaves.trans ((onlyAt_setSlot i _).trans (onlyAt_joinOwed _ _))
      · exact leaves.trans (onlyAt_setSlot i _)

theorem onlyAt_warn (i : SlotNo) : OnlyAt i s (s.warn i) := by
  simp only [State.warn]
  split
  · split
    · exact (onlyAt_setSlot i _).trans (onlyAt_offer i _)
    · exact .refl
  all_goals exact .refl

theorem onlyAt_tickSlot (i : SlotNo) : OnlyAt i s (s.tickSlot i) := by
  simp only [State.tickSlot]
  split
  · exact onlyAt_endLease _ i
  · exact onlyAt_warn i

/-! ### The slot itself -/

/-- A lease that has ended is live no more. -/
theorem State.live_endLease (s : State) (cause : EndCause) (i : SlotNo) :
    ((s.endLease cause i).slot i).body.live? = none := by
  cases h : (s.slot i).body.live? with
  | none => simp [State.endLease, h]
  | some l =>
    by_cases hc : l.owed = none ∧ s.canTake l.client.port = true
    · rw [(State.endLease_taken_leaves cause h hc.1 hc.2).1]; rfl
    · rw [(State.endLease_owed_leaves cause h (by grind)).1]; rfl

/-- No slot ends that is not live. -/
theorem SlotBody.tickEnd_of_not_live {b : SlotBody} (h : b.live? = none) : b.tickEnd = none := by
  cases b <;> simp_all [SlotBody.live?, SlotBody.tickEnd]

/-- What an offer does to the body of its slot: another notice may be owed (R111 to R113). -/
theorem State.body_offer (s : State) (i : SlotNo) (k : Owed) :
    ∃ f : Option Owed → Option Owed, ((s.offer i k).slot i).body =
      (s.slot i).body.mapLease fun l => { l with owed := f l.owed } := by
  have same : (s.slot i).body = (s.slot i).body.mapLease fun l => { l with owed := id l.owed } := by
    cases (s.slot i).body <;> rfl
  have put (o : Option Owed) : ((s.setOwed i o).slot i).body = (s.slot i).body.mapLease fun l => { l with owed := o } := by
    rw [State.slot_setOwed, if_pos rfl]
  simp only [State.offer]
  split
  · exact ⟨id, same⟩
  · split
    · exact ⟨id, same⟩
    · split
      · exact ⟨fun _ => some k, put _⟩
      · exact ⟨fun _ => _, put _⟩

theorem SlotBody.tickEnd_owing (f : Option Owed → Option Owed) (b : SlotBody) :
    (b.mapLease fun l => { l with owed := f l.owed }).tickEnd = b.tickEnd := by cases b <;> rfl

/-- A slot that does not end in step 2 does not come to end by its warning. -/
theorem State.tickEnd_warn (s : State) (i : SlotNo) : ((s.warn i).slot i).body.tickEnd = (s.slot i).body.tickEnd := by
  simp only [State.warn]
  split
  · rename_i l d e
    split
    · obtain ⟨f, body⟩ := (s.setBody i (.active { l with warned := true } d)).body_offer i .expiryWarning
      rw [body, SlotBody.tickEnd_owing, State.slot_setBody, if_pos rfl, e]
      rfl
    · rfl
  all_goals rfl

theorem State.tickEnd_tickSlot (s : State) (i : SlotNo) : ((s.tickSlot i).slot i).body.tickEnd = none := by
  simp only [State.tickSlot]
  split
  · exact SlotBody.tickEnd_of_not_live (s.live_endLease _ i)
  · rename_i e
    rw [State.tickEnd_warn, e]

end Sys2Proof.Machine
end

section
/-! PROOFS. Revocation, the requests, the ticks and the start-up keep the laws, and leave no grant and no application due
(R10 to R16, R31, R41, R42, R49, R54, R56, R64 to R73, R79, R85, R116, R117, R130 to R132, R149, R154). -/

namespace Sys2Proof.Machine

variable {s : State} {ns : List ResNo}

/-! ### What the ends keep -/

/-- No lease has come to be held and no upgrade to be pending, and the activation marks are as they were. -/
structure Ledger.Releases (L M : Ledger) : Prop where
  on : ∀ k n, (M.role k).on? = some n → (L.role k).on? = some n
  pending : ∀ n i, (M.record n).upgradePending = some i → (L.record n).upgradePending = some i
  mark : ∀ n, (M.record n).activationPending = (L.record n).activationPending

theorem Ledger.Releases.refl {L : Ledger} : L.Releases L := ⟨fun _ _ => id, fun _ _ => id, fun _ => rfl⟩

theorem Ledger.Releases.trans {L M N : Ledger} (h : L.Releases M) (k : M.Releases N) : L.Releases N :=
  ⟨fun i n x => h.on i n (k.on i n x), fun n i x => h.pending n i (k.pending n i x),
    fun n => (k.mark n).trans (h.mark n)⟩

theorem Ledger.Releases.foldl {α : Type} {f : State → α → State}
    (hf : ∀ (t : State) (a : α), t.ledger.Releases (f t a).ledger) (l : List α) (s : State) :
    s.ledger.Releases (l.foldl f s).ledger := by
  induction l generalizing s with
  | nil => exact .refl
  | cons a l ih => exact (hf s a).trans (ih _)

theorem Ledger.releases_endWait (L : Ledger) (j : WaitNo) : L.Releases (L.endWait j) := by
  cases hj : L.claim j with
  | none => rw [Ledger.endWait_of_none hj]; exact .refl
  | some x =>
    rw [Ledger.endWait_of_claim hj]
    refine ⟨fun k n => ?_, fun n i => ?_, fun n => ?_⟩
    · simp only [Ledger.setClaim_role, Ledger.setRole_role]
      split
      · simp
      · exact id
    all_goals
      simp only [Ledger.setClaim_record, Ledger.setRole_record, Ledger.setRecord_record]
      split
      · rename_i e; simp [e]
      · simp

theorem Record.pending_clearUpgrade {r : Record} {i k : SlotNo} (h : (r.clearUpgrade i).upgradePending = some k) :
    r.upgradePending = some k := by
  simp only [Record.clearUpgrade] at h
  split at h
  · simp at h
  · exact h

/-- A lease that ends, or loses its deadline, with a pending upgrade of its own. -/
theorem Ledger.releases_clear {L M : Ledger} {i : SlotNo} {n : ResNo} {a : Role}
    (hr : ∀ x, M.role x = if x = i then a else L.role x) (ha : ∀ k, a.on? = some k → (L.role i).on? = some k)
    (hn : (M.record n).upgradePending = ((L.record n).clearUpgrade i).upgradePending)
    (hm : (M.record n).activationPending = (L.record n).activationPending)
    (ho : ∀ k, k ≠ n → M.record k = L.record k) : L.Releases M := by
  refine ⟨fun k m h => ?_, fun k x h => ?_, fun k => ?_⟩
  · rw [hr] at h
    split at h
    · rename_i e; rw [e]; exact ha m h
    · exact h
  · by_cases e : k = n
    · rw [e] at h ⊢
      exact Record.pending_clearUpgrade (hn ▸ h)
    · rwa [ho k e] at h
  · by_cases e : k = n
    · rw [e, hm]
    · rw [ho k e]

theorem Ledger.releases_endLease (L : Ledger) (i : SlotNo) : L.Releases (L.endLease i) := by
  cases on : (L.role i).on? with
  | none => rw [Ledger.endLease_of_none on]; exact .refl
  | some n =>
    rw [Ledger.endLease_of_on on]
    exact Ledger.releases_clear (i := i) (n := n) (a := .idle) (fun x => by simp) (by simp) (by simp)
      (by simp [Record.clearUpgrade]) fun k hk => by simp [hk]

theorem Ledger.releases_calm (L : Ledger) (i : SlotNo) : L.Releases (L.calm i) := by
  cases on : (L.role i).on? with
  | none => rw [Ledger.calm_of_none on]; exact .refl
  | some n =>
    rw [Ledger.calm_of_on on]
    exact Ledger.releases_clear (i := i) (n := n) (a := (L.role i).calm) (fun x => by simp) (by simp) (by simp)
      (by simp [Record.clearUpgrade]) fun k hk => by simp [hk]

theorem releases_clearUpgrade (s : State) (n : ResNo) : s.ledger.Releases (s.clearUpgrade n).ledger := by
  cases hu : (s.record n).upgradePending with
  | none => rw [ledger_clearUpgrade_none s hu]; exact .refl
  | some i =>
    rw [ledger_clearUpgrade_some s hu]
    exact Ledger.releases_clear (i := i) (n := n) (a := (s.ledger.role i).calm) (fun x => by simp) (by simp) (by simp)
      (by simp [Record.clearUpgrade]) fun k hk => by simp [hk]

/-! ### Revocation (R85) -/

theorem releases_revokeSlot (s : State) (i : SlotNo) (g : Nat) : s.ledger.Releases (s.revokeSlot i g).ledger := by
  rcases ledger_revokeSlot s i g with e | e <;> rw [e]
  · exact .refl
  · split
    · exact Ledger.releases_endLease _ i
    · exact Ledger.releases_calm _ i

/-- A revocation leaves a grant due where it ends the lease, or clears a pending upgrade. -/
def Ledger.RevokedWithin (L : Ledger) (ns : List ResNo) (g : Nat) (i : SlotNo) : Prop :=
  ∀ n, (L.role i).on? = some n → g = 0 ∨ (L.record n).upgradePending = some i → n ∈ ns

theorem moves_revokeSlot {i : SlotNo} {g : Nat} (h : s.ledger.RevokedWithin ns g i) :
    s.ledger.Moves ns ns (s.revokeSlot i g).ledger := by
  rcases ledger_revokeSlot s i g with e | e <;> rw [e]
  · exact .refl
  · split
    · rename_i zero
      exact Ledger.moves_endLease fun n on => h n on (.inl zero)
    · exact fun leased => ⟨leased.calm i, fun serviced => serviced.calm leased i fun n on x => h n on (.inr x),
        (·.calm i)⟩

theorem moves_revokeAll {ls : List SlotNo} {g : Nat} (s : State) (h : ∀ i ∈ ls, s.ledger.RevokedWithin ns g i) :
    s.ledger.Moves ns ns (s.revokeAll ls g).ledger := by
  induction ls generalizing s with
  | nil => exact .refl
  | cons i ls ih =>
    have keeps := releases_revokeSlot s i g
    exact (moves_revokeSlot (h i List.mem_cons_self)).trans (ih _ fun k hk n on due =>
      h k (List.mem_cons_of_mem i hk) n (keeps.on k n on) (due.imp_right (keeps.pending n k)))

theorem moves_revokeOne {i : SlotNo} {l : Lease} (hl : (s.slot i).body.live? = some l) (g : Nat) :
    s.ledger.Moves [] [] (s.revokeOne i l.resource g).ledger := by
  have only {n : ResNo} (on : (s.ledger.role i).on? = some n) : n = l.resource :=
    (Option.some.inj ((on_of_live hl).symm.trans on)).symm
  simp only [State.revokeOne]
  split
  · refine ((Ledger.Moves.grow (List.nil_subset [l.resource])).trans (moves_revokeSlot fun n on _ => ?_)).trans
      (moves_grantRule _ _)
    simp [only on]
  · rename_i quiet
    refine moves_revokeSlot fun n on due => absurd ?_ quiet
    obtain rfl := only on
    simpa [State.upgradeNames] using due

/-- The holders named by the list are on the resource (R5). -/
theorem on_of_activeHolders (leased : s.ledger.Leased) {n : ResNo} {i : SlotNo} (hi : i ∈ s.activeHolders n) :
    (s.ledger.role i).on? = some n :=
  (leased.held.mem n i).1 (List.mem_of_mem_filter hi)

theorem moves_revokeActive (n : ResNo) (g : Nat) (hn : n ∈ ns) :
    s.ledger.Moves ns ns (s.revokeAll (s.activeHolders n) g).ledger := fun leased =>
  moves_revokeAll s (fun i hi k on _ => by
    obtain rfl : n = k := Option.some.inj ((on_of_activeHolders leased hi).symm.trans on)
    exact hn) leased

theorem moves_revokeHolders (n : ResNo) (g : Nat) : s.ledger.Moves [] [] (s.revokeHolders n g).ledger := by
  simp only [State.revokeHolders]
  split
  · exact ((Ledger.Moves.grow (List.nil_subset [n])).trans (moves_revokeActive n g List.mem_cons_self)).trans
      (moves_grantRule _ _)
  · rename_i quiet
    rw [not_or] at quiet
    obtain ⟨graced, unnamed⟩ := quiet
    refine fun leased => moves_revokeAll s (fun i hi k on due => ?_) leased
    obtain rfl : n = k := Option.some.inj ((on_of_activeHolders leased hi).symm.trans on)
    rcases due with zero | pending
    · exact absurd ⟨zero, List.ne_nil_of_mem hi⟩ graced
    · exact absurd (List.any_eq_true.2 ⟨i, hi, by simpa [State.upgradeNames] using pending⟩) unnamed

/-! ### DETACH, RESET_PORT and PURGE_CLIENT (R116, R117, R132) -/

theorem mem_insertAsc {n k : ResNo} {l : List ResNo} : k ∈ insertAsc n l ↔ k = n ∨ k ∈ l := by
  induction l with
  | nil => simp [insertAsc]
  | cons a t ih =>
    simp only [insertAsc]
    split
    · rename_i e; simp [e]
    · split
      · simp
      · rw [List.mem_cons, ih, List.mem_cons]
        exact or_left_comm

theorem mem_ascending {k : ResNo} {l : List ResNo} : k ∈ ascending l ↔ k ∈ l := by
  induction l with
  | nil => rfl
  | cons a t ih => rw [ascending, List.foldr_cons, mem_insertAsc, ← ascending, ih, List.mem_cons]

/-- The waits of a list are queued at its wait resources. -/
theorem endsWithin_waitResources {js : List WaitNo} {j : WaitNo} (hj : j ∈ js) (h : s.waitResources js ⊆ ns) :
    s.ledger.EndsWithin ns j := by
  intro w i claim
  have queued : (s.wait j).queued? = some w := by
    rw [WaitEntry.claim_queued, ← State.ledger_claim, claim]
    rfl
  exact .inl (h (List.mem_filterMap.2 ⟨j, hj, by rw [queued]; rfl⟩))

theorem mem_leaseResources {ls : List SlotNo} {i : SlotNo} {n : ResNo} (hi : i ∈ ls)
    (on : (s.ledger.role i).on? = some n) : n ∈ s.leaseResources ls :=
  List.mem_filterMap.2 ⟨i, hi, by rw [← SlotBody.role_on]; exact on⟩

/-- A pending upgrade of one of the slots is at a resource that it holds. -/
theorem on_of_upgradeResources {ls : List SlotNo} {n : ResNo} (h : n ∈ s.upgradeResources ls) :
    ∃ i ∈ ls, (s.ledger.role i).on? = some n := by
  obtain ⟨i, hi, e⟩ := List.mem_filterMap.1 h
  split at e
  · rename_i l hl
    split at e
    · obtain rfl := Option.some.inj e
      exact ⟨i, hi, on_of_live hl⟩
    · simp at e
  · simp at e

theorem releases_endWaitsQuiet (s : State) (js : List WaitNo) : s.ledger.Releases (s.endWaitsQuiet js).ledger :=
  .foldl (fun t j => by rw [ledger_endWaitQuiet]; exact Ledger.releases_endWait _ j) js s

theorem releases_clearUpgrades (s : State) (ks : List ResNo) : s.ledger.Releases (s.clearUpgrades ks).ledger :=
  .foldl (fun t n => releases_clearUpgrade t n) ks s

theorem moves_clearUpgrades {ks : List ResNo} (s : State) (h : ks ⊆ ns) :
    s.ledger.Moves ns ns (s.clearUpgrades ks).ledger := by
  induction ks generalizing s with
  | nil => exact .refl
  | cons n ks ih =>
    exact (moves_clearUpgrade (h List.mem_cons_self)).trans (ih _ fun _ hk => h (List.mem_cons_of_mem n hk))

/-- The waits, the pending upgrades and the leases of a client, or of a port, end, and the grant rules follow. -/
theorem moves_detachAll {js : List WaitNo} {ks : List ResNo} {ls : List SlotNo} (s : State)
    (hw : s.waitResources js ⊆ ns) (hk : ks ⊆ ns) (hl : s.leaseResources ls ⊆ ns) :
    s.ledger.Moves [] [] ((((s.endWaitsQuiet js).clearUpgrades ks).endLeasesQuiet ls).grantRules ns).ledger := by
  have waits : s.ledger.Moves ns ns (s.endWaitsQuiet js).ledger :=
    moves_endWaits (fun t j => .inr (ledger_endWaitQuiet t j)) js s fun _ j hj => endsWithin_waitResources hj hw
  have keeps := (releases_endWaitsQuiet s js).trans (releases_clearUpgrades (s.endWaitsQuiet js) ks)
  have leases := moves_endLeases (ns := ns) ledger_endLeaseQuiet ls ((s.endWaitsQuiet js).clearUpgrades ks)
    fun i hi n on => hl (mem_leaseResources hi (keeps.on i n on))
  exact (Ledger.Moves.grow (List.nil_subset ns)).trans <| waits.trans <| (moves_clearUpgrades _ hk).trans <|
    leases.trans (moves_grantRules ns _)

theorem moves_detach (c : Client) : s.ledger.Moves [] [] (s.detach c).1.ledger := by
  simp only [State.detach, ledger_deliverAllOwed]
  have start : ((s.setPort (.client c.port) ((s.port (.client c.port)).dropNotices c.tag)).withdrawAll c.port
      (s.owedOf c)).ledger = s.ledger := by rw [ledger_withdrawAll, ledger_setPort]
  generalize (s.setPort (.client c.port) ((s.port (.client c.port)).dropNotices c.tag)).withdrawAll c.port
    (s.owedOf c) = t at start ⊢
  rw [← start]
  refine moves_detachAll t (fun n hn => ?_) (fun n hn => ?_) fun n hn => ?_ <;>
    rw [mem_ascending, List.mem_append]
  · exact .inl hn
  · obtain ⟨i, hi, on⟩ := on_of_upgradeResources hn
    exact .inr (mem_leaseResources hi ((releases_endWaitsQuiet t _).on i n on))
  · exact .inr hn

theorem moves_resetPort (p : CPort) : s.ledger.Moves [] [] (s.resetPort p).1.ledger := by
  simp only [State.resetPort]
  have start : ((s.setPort (.client p) (s.port (.client p)).cleared).withdrawAll p (s.side p).owed).ledger = s.ledger := by
    rw [ledger_withdrawAll, ledger_setPort]
  generalize (s.setPort (.client p) (s.port (.client p)).cleared).withdrawAll p (s.side p).owed = t at start ⊢
  rw [← start]
  refine moves_detachAll t (fun n hn => ?_) (fun n hn => ?_) fun n hn => ?_ <;>
    rw [mem_ascending, List.mem_append, List.mem_append]
  · exact .inl (.inl hn)
  · exact .inl (.inr hn)
  · exact .inr hn

theorem moves_purge (c : Client) : s.ledger.Moves [] [] (s.purge c).1.ledger := by
  simp only [State.purge]
  have start := ledger_withdrawAll s c.port (s.owedOf c)
  generalize s.withdrawAll c.port (s.owedOf c) = t at start ⊢
  rw [← start]
  have waits := moves_endWaits (ns := ascending (t.waitResources (t.waitsOf c) ++ t.leaseResources (t.leasesOf c)))
    (fun t j => .inr (ledger_endWaitPurged t j)) (t.waitsOf c) t fun _ j hj =>
      endsWithin_waitResources hj fun n hn => by rw [mem_ascending]; exact List.mem_append_left _ hn
  have keeps : t.ledger.Releases ((t.waitsOf c).foldl (fun t j => t.endWaitPurged j) t).ledger :=
    .foldl (fun u j => by rw [ledger_endWaitPurged]; exact Ledger.releases_endWait _ j) _ t
  have leases := moves_endLeases (ns := ascending (t.waitResources (t.waitsOf c) ++ t.leaseResources (t.leasesOf c)))
    ledger_endLeasePurged (t.leasesOf c) _ fun i hi n on => by
      rw [mem_ascending]
      exact List.mem_append_right _ (mem_leaseResources hi (keeps.on i n on))
  exact (Ledger.Moves.grow (List.nil_subset _)).trans <| waits.trans <| leases.trans (moves_grantRules _ _)

/-! ### Activation (R10, R12, R16) -/

/-- A pending entry replaced by another one for the resource. -/
theorem ledger_replacePending {n : ResNo} {a : Activation} (ha : a.pendingFor n = true) :
    (s.setActivations (replacePending n a s.activations)).ledger = s.ledger := by
  refine ledger_setActivations (p := s.ledger.listed) fun k => ?_
  have count := (replacePending_counts ha s.activations).1 k
  rw [State.ledger_listed, State.pendingEntry, Bool.eq_iff_iff, List.find?_isSome, List.find?_isSome,
    ← List.countP_pos_iff, ← List.countP_pos_iff, count]

/-- Steps 3 and 4 of R12, on a resource whose mark is YES. -/
theorem moves_drain {n : ResNo} {a : Activation} (s : State) (hm : (s.record n).activationPending = true) :
    s.ledger.Moves [n] [] (s.drain n a).1.ledger := by
  have revoked : s.ledger.Moves [n] [n]
        (if a.revoke then s.revokeAll (s.activeHolders n) (s.entry n).fieldsD.grace else s).ledger
      ∧ ((if a.revoke then s.revokeAll (s.activeHolders n) (s.entry n).fieldsD.grace else s).record
          n).activationPending = true := by
    split
    · refine ⟨moves_revokeActive n _ List.mem_cons_self, ?_⟩
      have keeps : s.ledger.Releases (s.revokeAll (s.activeHolders n) (s.entry n).fieldsD.grace).ledger :=
        .foldl (fun t i => releases_revokeSlot t i _) _ s
      exact (keeps.mark n).trans hm
    · exact ⟨.refl, hm⟩
  simp only [State.drain]
  generalize (if a.revoke then s.revokeAll (s.activeHolders n) (s.entry n).fieldsD.grace else s) = t at revoked ⊢
  obtain ⟨moves, mark⟩ := revoked
  split
  · exact moves.trans (moves_applyNow t _)
  · rename_i held
    exact moves.trans (Ledger.moves_of_mark mark (.inl (by simpa using held)))

/-- An activation is recorded: the mark is YES, and its entry stands on the list (R8, R12). -/
theorem moves_recordActivation {n : ResNo} {a : Activation} (ha : a.pendingFor n = true) :
    s.ledger.Moves [] [n] (s.recordActivation n a).ledger := by
  have record (k : ResNo) : (s.recordActivation n a).ledger.record k =
      if k = n then { s.record n with activationPending := true } else s.record k :=
    State.record_setRecord (s.setActivations _) n k _
  have flag : s.ledger.OneFlag (s.recordActivation n a).ledger n :=
    ⟨rfl, rfl, rfl, fun _ _ => rfl, fun k hk => by rw [record, if_neg hk]; rfl, by rw [record, if_pos rfl]; rfl,
      by rw [record, if_pos rfl]; rfl, by rw [record, if_pos rfl]; rfl⟩
  have listed (k : ResNo) (h : s.ledger.listed k = true ∨ k = n) : (s.recordActivation n a).ledger.listed k = true := by
    simp only [State.ledger_listed, State.pendingEntry, List.find?_isSome, State.recordActivation,
      State.setRecord_activations, State.activations_setActivations] at h ⊢
    rcases h with ⟨x, hx, pending⟩ | rfl
    · exact ⟨x, List.mem_append_left _ hx, pending⟩
    · exact ⟨a, by simp, ha⟩
  refine fun leased => ⟨flag.leased leased, fun serviced => ?_, fun marked => ⟨fun k hk => listed k ?_, fun k out hk => ?_⟩⟩
  · exact (flag.serviced serviced leased (.inr (.of_mark (by rw [record, if_pos rfl])))).mono (List.nil_subset _)
  · by_cases e : k = n
    · exact .inr e
    · rw [flag.record k e] at hk
      exact .inl (marked.listed k hk)
  · have e : k ≠ n := by simpa using out
    rw [flag.record k e] at hk ⊢
    exact marked.held k List.not_mem_nil hk

theorem recordActivation_endUpgrade_mark (n : ResNo) (a : Activation) (cause : UpgradeEndCause) :
    (((s.recordActivation n a).endUpgrade n cause).record n).activationPending = true := by
  have keeps := (releases_clearUpgrade (s.recordActivation n a) n).mark n
  rw [← ledger_endUpgrade _ n cause] at keeps
  refine keeps.trans ?_
  rw [State.ledger_record, State.recordActivation, State.record_setRecord, if_pos rfl]

/-- A new image for a resource that nobody holds and nobody waits for comes into force at once (R12, step 2). -/
theorem moves_setEntry {n : ResNo} (image : Entry) (hq : (s.record n).queue = []) :
    s.ledger.Moves [] [] (s.setEntry n image).ledger := by
  have flag : s.ledger.OneFlag (s.setEntry n image).ledger n := by
    rw [ledger_setEntry]
    exact ⟨rfl, rfl, rfl, fun k hk => by simp [hk], fun _ _ => rfl, rfl, rfl, rfl⟩
  exact fun leased => ⟨flag.leased leased,
    fun serviced => flag.serviced serviced leased (.inr (.of_empty hq)),
    fun marked => marked.congr rfl (fun _ => rfl) fun _ _ => id⟩

theorem moves_activateImage {n : ResNo} {a : Activation} (ha : a.pendingFor n = true) :
    s.ledger.Moves [] [] (s.activate n a).1.ledger := by
  simp only [State.activate]
  split
  · rename_i mark
    have same := ledger_replacePending (s := s) ha
    split
    · have drained := moves_drain (a := a) (s.setActivations (replacePending n a s.activations)) mark
      rw [same] at drained
      exact (Ledger.Moves.grow (List.nil_subset [n])).trans drained
    · exact .of_eq same
  · split
    · rename_i quiet
      simp only [Bool.and_eq_true, List.isEmpty_iff] at quiet
      exact moves_setEntry _ quiet.2
    · split
      · exact .refl
      · exact (moves_recordActivation ha).trans <|
          (moves_endUpgrade List.mem_cons_self _).trans (moves_drain _ (recordActivation_endUpgrade_mark n a _))

theorem moves_cancelActivation {n : ResNo} : s.ledger.Moves [] [n] (s.cancelActivation n).ledger := by
  have flag : s.ledger.OneFlag (s.cancelActivation n).ledger n := by
    rw [State.cancelActivation, ledger_setRecord]
    exact ⟨rfl, rfl, rfl, fun _ _ => rfl, fun k hk => by simp [hk], by simp, by simp, by simp⟩
  have grow : s.ledger.Moves [] [n] s.ledger := .grow (List.nil_subset _)
  refine grow.trans fun leased => ⟨flag.leased leased, fun serviced =>
    flag.serviced serviced leased (.inl List.mem_cons_self), fun marked => flag.marked_clear marked (fun k hk => ?_) ?_⟩
  · exact find_dropPending hk _
  · simp [State.cancelActivation]

/-! ### Ticks (R49, R67, R79) -/

/-- Step 2 at one slot leaves the other slots, and no end of its own. -/
theorem State.tickEnd_of_tickSlot {i k : SlotNo} (h : ((s.tickSlot i).slot k).body.tickEnd.isSome = true) :
    (s.tickSlot i).slot k = s.slot k := by
  by_cases e : k = i
  · subst e
    simp [State.tickEnd_tickSlot] at h
  · exact (onlyAt_tickSlot i).slot k e

/-- Leases that end at the resources of a list. -/
theorem moves_tickSlots (ls : List SlotNo) (s : State)
    (h : ∀ i, (s.slot i).body.tickEnd.isSome = true → ∀ n, (s.ledger.role i).on? = some n → n ∈ ns) :
    s.ledger.Moves ns ns (ls.foldl (fun t i => t.tickSlot i) s).ledger := by
  induction ls generalizing s with
  | nil => exact .refl
  | cons i ls ih =>
    refine Ledger.Moves.trans (M := (s.tickSlot i).ledger) ?_ (ih _ fun k hk n on => ?_)
    · simp only [State.tickSlot]
      split
      · rename_i e
        rw [ledger_endLease]
        exact Ledger.moves_endLease (h i (by simp [e]))
      · exact .of_eq (ledger_warn s i)
    · have same := State.tickEnd_of_tickSlot hk
      rw [State.ledger_role, same] at on
      exact h k (same ▸ hk) n on

theorem moves_leaseTick : s.ledger.Moves [] [] s.leaseTick.ledger := by
  have ends := moves_tickSlots (ns := s.tickSlots.tickEnded) allSlots s.tickSlots fun i due n on => by
    refine List.mem_filterMap.2 ⟨i, List.mem_finRange i, ?_⟩
    rw [if_pos due, ← SlotBody.role_on]
    exact on
  rw [ledger_tickSlots] at ends
  exact (Ledger.Moves.grow (List.nil_subset _)).trans (ends.trans (moves_grantRules _ _))

theorem moves_endTimeouts {ks : List ResNo} (s : State) (h : ks ⊆ ns) :
    s.ledger.Moves ns ns (s.endTimeouts ks).ledger := by
  induction ks generalizing s with
  | nil => exact .refl
  | cons n ks ih =>
    refine Ledger.Moves.trans ?_ (ih _ fun _ hk => h (List.mem_cons_of_mem n hk))
    dsimp only
    split
    · rename_i k hk
      rw [ledger_endWait]
      exact Ledger.moves_endWait fun serviced =>
        serviced.queues.endsWithin (List.mem_of_find?_eq_some hk) (.inl (h List.mem_cons_self))
    · exact .refl

theorem moves_waitTick (order : List WaitNo) : s.ledger.Moves [] [] (s.waitTick order).ledger := by
  simp only [State.waitTick]
  generalize s.tickWaits.timeoutResources (s.tickWaits.timeouts order) = ks
  have ends := moves_endTimeouts s.tickWaits (List.Subset.refl ks)
  rw [ledger_tickWaits] at ends
  exact (Ledger.Moves.grow (List.nil_subset _)).trans (ends.trans (moves_grantRules _ _))

theorem moves_endUpgrades {ks : List ResNo} (s : State) (h : ks ⊆ ns) :
    s.ledger.Moves ns ns (ks.foldl (fun t n => t.endUpgrade n .timeout) s).ledger := by
  induction ks generalizing s with
  | nil => exact .refl
  | cons n ks ih =>
    exact (moves_endUpgrade (h List.mem_cons_self) _).trans (ih _ fun _ hk => h (List.mem_cons_of_mem n hk))

theorem moves_upgradeTick (order : List ResNo) : s.ledger.Moves [] [] (s.upgradeTick order).ledger := by
  simp only [State.upgradeTick]
  generalize s.tickDeadlines.upgradeTimeouts order = ks
  have ends := moves_endUpgrades s.tickDeadlines (List.Subset.refl ks)
  rw [ledger_tickDeadlines] at ends
  exact (Ledger.Moves.grow (List.nil_subset _)).trans (ends.trans (moves_grantRules _ _))

/-- A lease that ends by itself, and the grant rule after it (R32). -/
theorem moves_endLease_grant {i : SlotNo} {l : Lease} (h : (s.slot i).body.live? = some l) (cause : EndCause) :
    s.ledger.Moves [] [] ((s.endLease cause i).grantRule l.resource).ledger := by
  refine Ledger.Moves.trans (Ledger.Moves.grow (List.nil_subset [l.resource])) ?_
  refine Ledger.Moves.trans (M := (s.endLease cause i).ledger) ?_ (moves_grantRule _ _)
  rw [ledger_endLease]
  exact Ledger.moves_endLease fun n on => by
    obtain rfl := Option.some.inj ((on_of_live h).symm.trans on)
    simp

/-! ### Start-up (R149, R154) -/

/-- Whatever was before, empty tables keep every law. -/
theorem Ledger.moves_to_empty {L M : Ledger} (hr : ∀ i, M.role i = .idle) (hc : ∀ j, M.claim j = none)
    (hn : ∀ n, M.record n = Record.empty) : L.Moves [] [] M := fun _ =>
  ⟨⟨⟨fun n => by simp [hn, Record.empty], fun n i => by simp [hn, hr, Record.empty],
        fun n i hi => by simp [hn, Record.empty] at hi⟩,
      ⟨fun j w i h => by simp [hc] at h, fun j k w x i h => by simp [hc] at h, fun i x h => by simp [hr] at h⟩⟩,
    fun _ => ⟨⟨fun n => by simp [hn, Record.empty], fun n j => by simp [hn, hc, Record.empty],
        fun _ n => by simp [hn, Record.empty]⟩,
      ⟨fun n i => by simp [hn, hr, Record.empty], fun i n h => by simp [hr] at h⟩,
      fun n _ => .of_empty (by simp [hn, Record.empty])⟩,
    fun _ => ⟨fun n h => by simp [hn, Record.empty] at h, fun n _ h => by simp [hn, Record.empty] at h⟩⟩

theorem moves_startUpBegin (L : Ledger) (u : State) : L.Moves [] [] u.startUpBegin.ledger := by
  refine Ledger.moves_to_empty (fun i => ?_) (fun j => ?_) fun n => ?_
  · simp [State.slot, State.startUpBegin, Vector.get_eq_getElem, Slot.initial, SlotBody.role]
  · simp [State.wait, State.startUpBegin, Vector.get_eq_getElem, WaitEntry.claim?]
  · simp [State.record, State.startUpBegin, Vector.get_eq_getElem]

/-- The load of a start-up changes the directory and the part state, while nobody waits (R154). -/
theorem moves_load (hp : s.part = .starting) (r : StartResult) : s.ledger.Moves [] [] (s.load r).ledger := by
  simp only [State.load, ledger_pushMessage]
  rw [ledger_foldl_same fun t p => ledger_setSide t p _]
  refine fun leased => ⟨⟨leased.held.congr (fun _ => rfl) (fun _ => rfl) fun _ _ _ => .inl,
    leased.claimed.congr rfl fun _ => rfl⟩, fun serviced => ?_, fun marked => marked.congr rfl (fun _ => rfl) fun _ _ => id⟩
  have empty := serviced.queues.starting hp
  exact ⟨⟨serviced.queues.nodup, serviced.queues.mem, fun _ => empty⟩,
    serviced.upgrades.congr (fun _ => rfl) (fun _ => rfl) fun _ => id, fun n _ => .of_empty (empty n)⟩

/-! ### The client requests -/

/-- A decision that leaves nothing due is answered. -/
theorem moves_clientRequest {k : Kind} {d : Client → Frame → State → Decision}
    (h : s.serving = true → ∀ c f, s.ledger.Moves [] [] (d c f s).1.ledger) :
    s.ledger.Moves [] [] (s.clientRequest k d).ledger := by
  rcases State.clientRequest_cases (s := s) (k := k) d with e | ⟨p, f, a, -, -, e⟩ | ⟨p, f, t, serving, -, -, e⟩ <;>
    rw [e]
  · exact .refl
  · exact .of_eq (ledger_answer s _ _ _)
  · rw [ledger_answer]
    exact h serving _ f

theorem moves_supRequest {k : Kind} {d : Frame → State → Decision} (h : ∀ f, s.ledger.Moves [] [] (d f s).1.ledger) :
    s.ledger.Moves [] [] (s.supRequest k d).ledger := by
  rcases State.supRequest_cases (s := s) (k := k) d with e | ⟨f, a, -, -, e⟩ | ⟨f, -, -, e⟩ <;> rw [e]
  · exact .refl
  · exact .of_eq (ledger_answer s _ _ _)
  · rw [ledger_answer]
    exact h f

theorem moves_withHandle {c : Client} {f : Frame} {before : Option Status} {d : SlotNo → Lease → Decision}
    (h : ∀ i l, (s.slot i).body.live? = some l → s.ledger.Moves [] [] (d i l).1.ledger) :
    s.ledger.Moves [] [] (s.withHandle c f before d).1.ledger := by
  simp only [State.withHandle]
  split
  · exact .refl
  · split
    · exact .refl
    · split
      · exact .refl
      · rename_i l hl
        split
        · simp only [State.accept] at hl
          split at hl
          · exact h _ l hl
          · simp at hl
        · exact .refl

theorem role_of_free {i : SlotNo} (h : (s.slot i).body = .free) : s.ledger.role i = .idle := by
  rw [State.ledger_role, h]; rfl

/-- ACQUIRE grants where the resource is grantable and nobody waits (R40, R41). -/
theorem moves_acquireGrant {c : Client} {n : ResNo} {m : Mode} {term : Nat} {i : SlotNo} (hi : (s.slot i).body = .free)
    (hg : s.grantsAtOnce n m = true) : s.ledger.Moves [] [] (s.acquireGrant c n m term i).1.ledger := by
  obtain ⟨grantable, empty⟩ := State.grantsAtOnce_iff.1 hg
  refine Ledger.Moves.trans (M := (s.grantSlot i n c m term).ledger) ?_ (moves_exhaust _ n)
  rw [ledger_grantSlot]
  exact fun leased => ⟨leased.grant (role_of_free hi) ((grantable_iff n m).1 grantable),
    fun serviced => serviced.grant leased (role_of_free hi) empty, (·.grant i n m)⟩

/-- ACQUIRE queues a wait behind others, or where the resource is not grantable for it (R40, R42). -/
theorem moves_acquireQueue {c : Client} {n : ResNo} {m : Mode} {term limit : Nat} {rid : Byte} {i : SlotNo} {j : WaitNo}
    (hs : s.part ≠ .starting) (hi : (s.slot i).body = .free) (hj : s.wait j = .free)
    (hg : ¬ s.grantsAtOnce n m = true) :
    s.ledger.Moves [] [] (s.acquireQueue c n m term limit rid i j).1.ledger := by
  rw [ledger_acquireQueue]
  have unclaimed : s.ledger.claim j = none := claim_of_not_queued (by rw [hj]; rfl)
  refine fun leased => ⟨leased.book (role_of_free hi) unclaimed, fun serviced =>
    serviced.book (role_of_free hi) leased unclaimed hs fun empty grantable => hg ?_, (·.book)⟩
  exact State.grantsAtOnce_iff.2 ⟨(grantable_iff n m).2 grantable, empty⟩

theorem moves_acquire (hs : s.part ≠ .starting) (c : Client) (f : Frame) :
    s.ledger.Moves [] [] (acquireDecision c f s).1.ledger := by
  simp only [acquireDecision]
  split
  · exact .refl
  · split
    · exact .refl
    · split
      · exact .refl
      · simp only [State.acquirePlace]
        split
        · exact .refl
        · rename_i hi
          split
          · rename_i hg
            exact moves_acquireGrant (State.free_of_freeSlot hi) hg
          · rename_i hg
            split
            · exact .refl
            · split
              · exact .refl
              · rename_i hj
                exact moves_acquireQueue hs (State.free_of_freeSlot hi) (State.free_of_freeWait hj) hg

/-- An end, or a change, at one resource, and its grant rule. -/
theorem moves_then_grantRule {t : State} {n : ResNo} (h : s.ledger.Moves [n] [n] t.ledger) :
    s.ledger.Moves [] [] (t.grantRule n).ledger :=
  (Ledger.Moves.grow (List.nil_subset [n])).trans (h.trans (moves_grantRule t n))

theorem moves_cancelWait (c : Client) (f : Frame) : s.ledger.Moves [] [] (cancelWaitDecision c f s).1.ledger := by
  simp only [cancelWaitDecision]
  split
  · rename_i j hj
    refine moves_then_grantRule ?_
    rw [ledger_endWaitQuiet]
    refine Ledger.moves_endWait fun _ w i claim => .inl ?_
    obtain ⟨r, e⟩ := WaitEntry.claim_iff.1 claim
    have own := List.find?_some hj
    simp only [e, WaitEntry.queued?, Bool.and_eq_true, decide_eq_true_eq] at own
    simp [own.2]
  · exact .refl

theorem moves_release (c : Client) (f : Frame) : s.ledger.Moves [] [] (releaseDecision c f s).1.ledger :=
  moves_withHandle fun i l hl => by
    refine moves_then_grantRule ?_
    rw [ledger_endLeaseQuiet]
    exact Ledger.moves_endLease fun n on => by
      obtain rfl := Option.some.inj ((on_of_live hl).symm.trans on)
      simp

theorem moves_renew (c : Client) (f : Frame) : s.ledger.Moves [] [] (renewDecision c f s).1.ledger :=
  moves_withHandle fun i l _ => by
    split
    · exact .refl
    · exact .of_eq (ledger_renewSlot s i l _)

/-- What an UPGRADE that is not refused is of: a SHARED lease in ACTIVE, with no upgrade pending at its resource (R64). -/
theorem role_of_upgradeRefusal {i : SlotNo} {l : Lease} (hl : (s.slot i).body.live? = some l)
    (h : s.upgradeRefusal i l = none) :
    l.mode = .shared ∧ (∃ u, s.ledger.role i = .holds l.resource .shared u)
      ∧ (s.record l.resource).upgradePending = none := by
  have free : l.mode ≠ .exclusive ∧ ¬ (s.record l.resource).upgradePending.isSome = true := by
    simp only [State.upgradeRefusal] at h
    grind
  have shared : l.mode = .shared := by
    cases e : l.mode with
    | shared => rfl
    | exclusive => exact absurd e free.1
  refine ⟨shared, ?_, by simpa using free.2⟩
  rw [State.ledger_role]
  cases e : (s.slot i).body <;> simp_all [SlotBody.live?, SlotBody.role]

theorem moves_upgrade (c : Client) (f : Frame) : s.ledger.Moves [] [] (upgradeDecision c f s).1.ledger :=
  moves_withHandle fun i l hl => by
    split
    · exact .refl
    · rename_i passed
      obtain ⟨shared, ⟨u, role⟩, free⟩ := role_of_upgradeRefusal hl passed
      dsimp only
      split
      · rename_i sole
        refine Ledger.Moves.trans (M := (s.upgradeSlot i l.resource).ledger) ?_ (moves_exhaust _ _)
        rw [ledger_upgradeSlot]
        exact fun leased => ⟨leased.upgrade sole, fun serviced => serviced.upgrade leased sole,
          (·.upgrade (on_of_live hl))⟩
      · split
        · exact .refl
        · rw [ledger_recordUpgrade, shared]
          exact fun leased => ⟨leased.await role, fun serviced => serviced.await role free leased, (·.await role)⟩

theorem moves_cancelUpgrade (c : Client) (f : Frame) : s.ledger.Moves [] [] (cancelUpgradeDecision c f s).1.ledger :=
  moves_withHandle fun i l _ => by
    split
    · exact moves_then_grantRule (moves_clearUpgrade List.mem_cons_self)
    · exact .refl

theorem moves_downgrade (c : Client) (f : Frame) : s.ledger.Moves [] [] (downgradeDecision c f s).1.ledger :=
  moves_withHandle fun i l hl => by
    split
    · exact .refl
    · refine moves_then_grantRule ?_
      rw [ledger_downgradeSlot]
      have on := on_of_live hl
      exact fun leased => ⟨leased.downgrade on, fun serviced => serviced.downgrade on leased List.mem_cons_self,
        (·.downgrade on)⟩

/-! ### The supervisor's requests -/

theorem moves_stageRequest {code : Byte} {len : Nat} {judge : Frame → State → Judged} :
    s.ledger.Moves [] [] (s.stageRequest code len judge).ledger := by
  rcases State.stageRequest_cases (s := s) code len judge with e | ⟨f, a, -, -, e⟩ | ⟨f, -, -, e⟩ <;> rw [e]
  · exact .refl
  · exact .of_eq (ledger_answer s _ _ _)
  · exact .of_eq (ledger_stageCommand s _)

theorem moves_revoke (f : Frame) : s.ledger.Moves [] [] (revokeDecision f s).1.ledger := by
  simp only [revokeDecision]
  split
  · split
    · exact .refl
    · rename_i l hl
      simp only [State.accept] at hl
      split at hl
      · split
        · exact .refl
        · exact moves_revokeOne hl _
      · simp at hl
  · exact .refl

theorem moves_revokeResource (f : Frame) : s.ledger.Moves [] [] (revokeResourceDecision f s).1.ledger := by
  simp only [revokeResourceDecision]
  split
  · exact .refl
  · exact moves_revokeHolders _ _

theorem moves_purgeClient (f : Frame) : s.ledger.Moves [] [] (purgeClientDecision f s).1.ledger := by
  simp only [purgeClientDecision]
  split
  · exact moves_purge _
  · exact .refl

theorem moves_setTimebase (f : Frame) : s.ledger.Moves [] [] (setTimebaseDecision f s).1.ledger := by
  simp only [setTimebaseDecision]
  split
  · exact .refl
  · split
    · exact .of_eq (ledger_setTimebase s _ _)
    · exact .refl

theorem moves_activate (f : Frame) : s.ledger.Moves [] [] (activateDecision f s).1.ledger := by
  simp only [activateDecision]
  split
  · exact .refl
  · split
    · exact .refl
    · exact moves_activateImage (by simp [State.capture, Activation.pendingFor])

theorem moves_cancelActivationRequest (f : Frame) :
    s.ledger.Moves [] [] (cancelActivationDecision f s).1.ledger := by
  simp only [cancelActivationDecision]
  split
  · exact moves_cancelActivation.trans (moves_grantRule _ _)
  · exact .refl

theorem moves_storeLaunch (f : Frame) : s.ledger.Moves [] [] (storeLaunchDecision f s).1.ledger := by
  simp only [storeLaunchDecision]
  split
  · exact .refl
  · split
    · exact .refl
    · exact .refl
    · split <;> exact .refl

theorem moves_storeDiscard (f : Frame) : s.ledger.Moves [] [] (storeDiscardDecision f s).1.ledger := by
  simp only [storeDiscardDecision]
  split <;> exact .refl

theorem moves_storeRead (f : Frame) : s.ledger.Moves [] [] (storeReadDecision f s).1.ledger := by
  simp only [storeReadDecision]
  split <;> exact .refl

theorem moves_readLease (f : Frame) : s.ledger.Moves [] [] (readLeaseDecision f s).1.ledger := by
  simp only [readLeaseDecision]
  split <;> exact .refl

theorem moves_readQueue (f : Frame) : s.ledger.Moves [] [] (readQueueDecision f s).1.ledger := by
  simp only [readQueueDecision]
  split <;> exact .refl

theorem moves_readWait (f : Frame) : s.ledger.Moves [] [] (readWaitDecision f s).1.ledger := by
  simp only [readWaitDecision]
  split <;> exact .refl

end Sys2Proof.Machine
end

section
/-! PROOFS. Every step keeps the lease law, the service law and the law of the activation marks (R5, R6, R14, R46, R59,
R66). -/

namespace Sys2Proof.Machine

variable {s : State}

/-- Where a command has a next state, nothing is left due there that was not due before. -/
def MovesTo (s : State) (o : Host.Outcome State Fault Refusal) : Prop :=
  ∀ t : State, o = .next t → s.ledger.Moves [] [] t.ledger

theorem movesTo_next {t : State} (h : s.ledger.Moves [] [] t.ledger) : MovesTo s (.next t) := by
  rintro u e
  obtain rfl := Host.Outcome.next.inj e
  exact h

theorem movesTo_same {t : State} (h : t.ledger = s.ledger) : MovesTo s (.next t) := movesTo_next (.of_eq h)

theorem movesTo_self : MovesTo s (.next s) := movesTo_same rfl

/-- A row that acts only where its condition holds (log 12). -/
theorem movesTo_ite {c : Prop} [Decidable c] {t : State} (h : c → s.ledger.Moves [] [] t.ledger) :
    MovesTo s (.next (if c then t else s)) := by
  split
  · exact movesTo_next (h ‹c›)
  · exact movesTo_self

/-! ### Supply, RESET# and start-up -/

theorem movesTo_powerOn : MovesTo s (execPowerOn s) := by
  simp only [execPowerOn]
  split
  · exact movesTo_self
  · split
    · exact movesTo_same rfl
    · exact movesTo_next (moves_startUpBegin _ _)

theorem movesTo_resetAssert (done : Quirks) : MovesTo s (execResetAssert done s) := by
  simp only [execResetAssert]
  split
  · exact movesTo_self
  · exact movesTo_same rfl

theorem movesTo_resetRelease : MovesTo s (execResetRelease s) := by
  simp only [execResetRelease]
  split
  · split
    · exact movesTo_next (moves_startUpBegin _ _)
    · exact movesTo_same rfl
  · exact movesTo_self

theorem movesTo_powerLoss (done : Quirks) : MovesTo s (execPowerLoss done s) := by
  simp only [execPowerLoss]
  split
  · refine movesTo_next (Ledger.moves_to_empty (fun i => ?_) (fun j => ?_) fun n => State.reset_record n)
    · exact congrArg (fun v => v.body.role) (State.reset_slot i)
    · exact congrArg WaitEntry.claim? (State.reset_wait j)
  · exact movesTo_self

theorem movesTo_startUpComplete (run : StartUpRun) : MovesTo s (execStartUpComplete run s) :=
  movesTo_ite fun h => by
    simp only [Bool.and_eq_true, decide_eq_true_eq] at h
    exact moves_load h.2 _

theorem movesTo_restart (done : Quirks) : MovesTo s (execRestart done s) := by
  refine movesTo_next ?_
  split
  · split
    · split
      · split
        · exact moves_startUpBegin _ _
        · exact .of_eq (ledger_answer s _ _ _)
      · exact .refl
    · exact .refl
    · exact .refl
  · exact .refl

/-! ### Requests of unknown kind, and the dispatcher -/

theorem movesTo_unknownRequestKind : MovesTo s (execUnknownRequestKind s) := by
  simp only [execUnknownRequestKind]
  split
  · exact movesTo_self
  · split
    · exact movesTo_same rfl
    · exact movesTo_self

theorem movesTo_dispatch : MovesTo s (execDispatch s) := by
  simp only [execDispatch]
  split
  · split
    · split
      · exact movesTo_same (ledger_takeFrame s _ _)
      · exact movesTo_self
    · exact movesTo_self
  · exact movesTo_self

/-! ### What ticks end, and the grant rule's parts -/

theorem movesTo_leaseExpiry (i : SlotNo) : MovesTo s (execLeaseExpiry i s) := by
  simp only [execLeaseExpiry]
  split
  · exact movesTo_self
  · rename_i live
    split
    · exact movesTo_next (moves_endLease_grant live _)
    · exact movesTo_self

theorem movesTo_graceEnd (i : SlotNo) : MovesTo s (execGraceEnd i s) := by
  simp only [execGraceEnd]
  split
  · exact movesTo_self
  · rename_i live
    split
    · exact movesTo_next (moves_endLease_grant live _)
    · exact movesTo_self

theorem movesTo_waitTimeout (j : WaitNo) : MovesTo s (execWaitTimeout j s) := by
  simp only [execWaitTimeout]
  split
  · exact movesTo_self
  · rename_i w queued
    split
    · refine movesTo_next (moves_then_grantRule ?_)
      rw [ledger_endWait]
      refine Ledger.moves_endWait fun _ x i claim => .inl ?_
      rw [WaitEntry.claim_queued, ← State.ledger_claim, claim] at queued
      obtain rfl : x = w := Option.some.inj queued
      exact List.mem_singleton.2 rfl
    · exact movesTo_self

theorem movesTo_upgradeTimeout (n : ResNo) : MovesTo s (execUpgradeTimeout n s) := by
  simp only [execUpgradeTimeout]
  split
  · exact movesTo_next (moves_then_grantRule (moves_endUpgrade List.mem_cons_self _))
  · exact movesTo_self

/-- Where every head waits, none is granted (R59). -/
theorem grantHead_of_headWaits {n : ResNo} (h : s.ledger.HeadWaits n) :
    s.grantHead? n = none := by
  rw [Option.eq_none_iff_forall_ne_some]
  intro t e
  obtain ⟨j, rest, w, r, i, hq, hj, g, -⟩ := grantHead_some e
  have waits := (headWaits_iff n).1 h j rest w r i hq hj
  simp [g] at waits

theorem movesTo_grantFromQueue (n : ResNo) : MovesTo s (execGrantFromQueue n s) := by
  refine movesTo_ite fun serves => ?_
  cases e : s.grantHead? n with
  | none => exact .refl
  | some t =>
    have flag : (s.record n).activationPending = false := by
      simp only [State.serves, Bool.and_eq_true, Bool.not_eq_true'] at serves
      exact serves.2
    intro leased
    obtain ⟨leased', -, marked⟩ := moves_grantHead (ns := [n]) e List.mem_cons_self leased
    refine ⟨leased', fun serviced => ?_, fun before => (marked (before.mono (List.nil_subset _))).settle ?_⟩
    · have waits := grantHead_of_headWaits (serviced.heads n List.not_mem_nil)
      simp [e] at waits
    · intro k hk _ mark
      obtain rfl := List.mem_singleton.1 hk
      rw [State.ledger_record, (grantHead_keeps e).1, flag] at mark
      simp at mark

theorem movesTo_activationApplication (n : ResNo) : MovesTo s (execActivationApplication n s) := by
  simp only [execActivationApplication]
  split
  · split
    · exact movesTo_next ((Ledger.Moves.grow (List.nil_subset [n])).trans (moves_applyPending s _))
    · exact movesTo_self
  · exact movesTo_self

/-! ### Completions of store operations -/

/-- Each completion has its own operation, and ends the same way. -/
theorem movesTo_storeComplete (phys : Quirks) :
    MovesTo s (execProgramEntryComplete phys s) ∧ MovesTo s (execErasePageComplete phys s)
      ∧ MovesTo s (execEraseDirectoryComplete phys s) ∧ MovesTo s (execBlankCheckComplete s)
      ∧ MovesTo s (execScanCrcComplete s) ∧ MovesTo s (execWriteSettingsComplete phys s) := by
  refine ⟨?_, ?_, ?_, ?_, ?_, ?_⟩
  all_goals
    simp only [execProgramEntryComplete, execErasePageComplete, execEraseDirectoryComplete, execBlankCheckComplete,
      execScanCrcComplete, execWriteSettingsComplete]
    split
    · exact movesTo_same (ledger_complete s _ _)
    · exact movesTo_self

theorem movesTo_initHeaderComplete (phys : Quirks) : MovesTo s (execInitHeaderComplete phys s) := by
  simp only [execInitHeaderComplete]
  split
  · split
    · exact movesTo_next (moves_startUpBegin _ _)
    · exact movesTo_same (ledger_complete s _ _)
  · exact movesTo_self

/-! ### Every command -/

theorem movesTo_client {k : Kind} {d : Client → Frame → State → Decision}
    (h : s.serving = true → ∀ c f, s.ledger.Moves [] [] (d c f s).1.ledger) :
    MovesTo s (.next (s.clientRequest k d)) := movesTo_next (moves_clientRequest h)

theorem movesTo_sup {k : Kind} {d : Frame → State → Decision} (h : ∀ f, s.ledger.Moves [] [] (d f s).1.ledger) :
    MovesTo s (.next (s.supRequest k d)) := movesTo_next (moves_supRequest h)

theorem part_of_serving (h : s.serving = true) : s.part ≠ .starting := by
  simp only [State.serving, Bool.and_eq_true, decide_eq_true_eq] at h
  exact h.2

/-- Every command keeps the laws. -/
theorem movesTo_exec (c : Instr) (s : State) : MovesTo s (exec c s) := by
  cases c with
  | powerOn => exact movesTo_powerOn
  | resetAssert done => exact movesTo_resetAssert done
  | resetRelease => exact movesTo_resetRelease
  | powerLoss done => exact movesTo_powerLoss done
  | startUpComplete run => exact movesTo_startUpComplete run
  | writeTransaction p e sent => exact movesTo_same (ledger_transact s fun t => ledger_finishWrite t p sent)
  | readTransaction p e bits => exact movesTo_same (ledger_transact s fun t => ledger_finishRead t p bits)
  | statusTransaction p e bits => exact movesTo_same (ledger_transact s fun t => ledger_finishPlain t p bits)
  | unknownKindTransaction p e kind bits => exact movesTo_same (ledger_transact s fun t => ledger_finishPlain t p bits)
  | unknownRequestKind => exact movesTo_unknownRequestKind
  | acquire => exact movesTo_client fun serving => moves_acquire (part_of_serving serving)
  | cancelWait => exact movesTo_client fun _ => moves_cancelWait
  | release => exact movesTo_client fun _ => moves_release
  | renew => exact movesTo_client fun _ => moves_renew
  | upgrade => exact movesTo_client fun _ => moves_upgrade
  | cancelUpgrade => exact movesTo_client fun _ => moves_cancelUpgrade
  | downgrade => exact movesTo_client fun _ => moves_downgrade
  | verify => exact movesTo_client fun _ c f => .of_eq (congrArg State.ledger (state_verify c f))
  | queryResource => exact movesTo_client fun _ _ _ => .refl
  | queryLease => exact movesTo_client fun _ c f => .of_eq (congrArg State.ledger (state_queryLease c f))
  | listMine => exact movesTo_client fun _ _ _ => .refl
  | detach => exact movesTo_client fun _ c _ => moves_detach c
  | resetPort => exact movesTo_client fun _ c _ => moves_resetPort c.port
  | status => exact movesTo_sup fun _ => .refl
  | readLease => exact movesTo_sup moves_readLease
  | readResource => exact movesTo_sup fun _ => .refl
  | readQueue => exact movesTo_sup moves_readQueue
  | readWait => exact movesTo_sup moves_readWait
  | revoke => exact movesTo_sup moves_revoke
  | revokeResource => exact movesTo_sup moves_revokeResource
  | purgeClient => exact movesTo_sup moves_purgeClient
  | setTimebase => exact movesTo_sup moves_setTimebase
  | activate => exact movesTo_sup moves_activate
  | cancelActivation => exact movesTo_sup moves_cancelActivationRequest
  | storeStageProgramEntry => exact movesTo_next moves_stageRequest
  | storeStageErasePage => exact movesTo_next moves_stageRequest
  | storeStageEraseDirectory => exact movesTo_next moves_stageRequest
  | storeStageBlankCheck => exact movesTo_next moves_stageRequest
  | storeStageScanCrc => exact movesTo_next moves_stageRequest
  | storeStageWriteSettings => exact movesTo_next moves_stageRequest
  | storeStageInitHeader => exact movesTo_next moves_stageRequest
  | storeLaunch => exact movesTo_sup moves_storeLaunch
  | storeDiscard => exact movesTo_sup moves_storeDiscard
  | storeClear => exact movesTo_sup fun _ => .refl
  | storeRead => exact movesTo_sup moves_storeRead
  | restart done => exact movesTo_restart done
  | tick periods => exact movesTo_ite fun _ => .of_eq (ledger_count s periods)
  | leaseTableTick => exact movesTo_ite fun _ => moves_leaseTick (s := { s with leaseTicks := s.leaseTicks - 1 })
  | waitPoolTick order => exact movesTo_ite fun _ => moves_waitTick (s := { s with waitTicks := s.waitTicks - 1 }) order
  | pendingUpgradesTick order =>
    exact movesTo_ite fun _ => moves_upgradeTick (s := { s with upgradeTicks := s.upgradeTicks - 1 }) order
  | leaseExpiry i => exact movesTo_leaseExpiry i
  | graceEnd i => exact movesTo_graceEnd i
  | waitTimeout j => exact movesTo_waitTimeout j
  | upgradeTimeout n => exact movesTo_upgradeTimeout n
  | grantFromQueue n => exact movesTo_grantFromQueue n
  | upgradeGrant n => exact movesTo_ite fun _ => moves_serveUpgrade s n
  | activationApplication n => exact movesTo_activationApplication n
  | owedNoticeDelivery p => exact movesTo_ite fun _ => .of_eq (ledger_deliverAllOwed s p)
  | heldNoticeDelivery => exact movesTo_ite fun _ => .of_eq (ledger_deliverAllHeld s)
  | dispatch => exact movesTo_dispatch
  | programEntryComplete phys => exact (movesTo_storeComplete phys).1
  | erasePageComplete phys => exact (movesTo_storeComplete phys).2.1
  | eraseDirectoryComplete phys => exact (movesTo_storeComplete phys).2.2.1
  | blankCheckComplete => exact (movesTo_storeComplete []).2.2.2.1
  | scanCrcComplete => exact (movesTo_storeComplete []).2.2.2.2.1
  | writeSettingsComplete phys => exact (movesTo_storeComplete phys).2.2.2.2.2
  | initHeaderComplete phys => exact movesTo_initHeaderComplete phys
  | launchedCommandStart => exact movesTo_ite fun _ => .of_eq rfl

/-- A step takes the front command from the queue and carries it out. -/
theorem moves_step {t : State} (h : step s = .next t) : s.ledger.Moves [] [] t.ledger := by
  simp only [step] at h
  split at h
  · exact movesTo_self t h
  · rename_i c rest _
    exact movesTo_exec c { s with pending := rest } t h

/-- Settles O11: every command leaves no grant and no application due, through the laws on the ledger (R14, R59). -/
theorem serviceLawKept : Obligations.ServiceLawKept := by
  refine ⟨fun s t lease service h => ?_, fun s t lease activation mark h => ?_⟩ <;>
    obtain ⟨leased, serviced, marked⟩ := moves_step h (leaseLaw_iff.1 lease)
  · exact (serviceLaw_iff (leaseLaw_iff.2 leased)).2 (serviced ((serviceLaw_iff lease).1 service))
  · exact markLaw_of_marked (marked (marked_of_laws activation mark))

end Sys2Proof.Machine
end

section
/-! PROOFS. The lease table's tick: the subtraction, the ends and the warnings (R79, R80, R81, R88). -/

namespace Sys2Proof.Machine

variable {s t : State} {i : SlotNo}

/-! ### A notice offered for a slot (R111 to R113) -/

/-- The body with another owed notice. -/
def SlotBody.owing (o : Option Owed) (b : SlotBody) : SlotBody := b.mapLease (Lease.owing o)

theorem SlotBody.owing_same {b : SlotBody} {l : Lease} (h : b.lease? = some l) : b.owing l.owed = b := by
  cases b <;> simp_all [SlotBody.lease?, SlotBody.owing, SlotBody.mapLease, Lease.owing]

theorem State.slot_setOwed_owing (s : State) (i : SlotNo) (o : Option Owed) :
    (s.setOwed i o).slot i = { s.slot i with body := (s.slot i).body.owing o } := by
  rw [State.slot_setOwed, if_pos rfl]
  rfl

/-- Where an offered notice is at the end: queued, or owed by the slot, or merged with the one it owed. -/
def State.offered (s : State) (i : SlotNo) (l : Lease) (k : Owed) (m : Message) (o : Option Owed) : Prop :=
  (o = l.owed ∧ m ∈ (s.port (.client l.client.port)).queue)
    ∨ (l.owed = none ∧ o = some k ∧ .slot i ∈ (s.side l.client.port).owed)
    ∨ ∃ old, l.owed = some old ∧ o = some (old.merge k)

/-- An offer leaves its slot as it was but for the notice it owes, and the notice is queued, owed or merged. -/
theorem State.offer_leaves {l : Lease} (h : (s.slot i).body.lease? = some l) (k : Owed) :
    ∃ o, (s.offer i k).slot i = { s.slot i with body := (s.slot i).body.owing o }
      ∧ (s.offer i k).offered i l k (s.slotNotice i l k) o := by
  by_cases hc : s.canTake l.client.port = true
  · rw [State.offer_taken h hc]
    refine ⟨l.owed, ?_, .inl ⟨rfl, ?_⟩⟩
    · rw [State.pushMessage_slot, SlotBody.owing_same h]
    · rw [State.port_pushMessage, if_pos rfl]
      exact List.mem_append_right _ List.mem_cons_self
  · rw [Bool.not_eq_true] at hc
    cases ho : l.owed with
    | none =>
      rw [State.offer_owed h hc ho]
      refine ⟨some k, by rw [State.joinOwed_slot, State.slot_setOwed_owing], .inr (.inl ⟨ho, rfl, ?_⟩)⟩
      rw [State.side_joinOwed, if_pos rfl]
      exact List.mem_append_right _ List.mem_cons_self
    | some old =>
      rw [State.offer_merged h hc ho]
      exact ⟨some (old.merge k), State.slot_setOwed_owing _ _ _, .inr (.inr ⟨old, ho, rfl⟩)⟩

/-! ### What is elsewhere leaves a slot -/

/-- Slot `i`, the directory, and the notices queued and owed are there still. -/
structure Leaves (i : SlotNo) (s t : State) : Prop where
  slot : t.slot i = s.slot i
  entries : t.entries = s.entries
  messages : ∀ p m, m ∈ (s.port p).queue → m ∈ (t.port p).queue
  owed : ∀ p x, x ∈ (s.side p).owed → x ∈ (t.side p).owed

theorem Leaves.refl : Leaves i s s := ⟨rfl, rfl, fun _ _ => id, fun _ _ => id⟩

theorem Leaves.trans {u : State} (h : Leaves i s t) (k : Leaves i t u) : Leaves i s u where
  slot := k.slot.trans h.slot
  entries := k.entries.trans h.entries
  messages p m x := k.messages p m (h.messages p m x)
  owed p x y := k.owed p x (h.owed p x y)

theorem OnlyAt.leaves {k : SlotNo} (h : OnlyAt k s t) (hi : i ≠ k) : Leaves i s t :=
  ⟨h.slot i hi, h.entries, h.messages, h.owed⟩

theorem Leaves.offered (h : Leaves i s t) {l : Lease} {k : Owed} {m : Message} {o : Option Owed}
    (offer : s.offered i l k m o) : t.offered i l k m o :=
  offer.imp (fun ⟨e, queued⟩ => ⟨e, h.messages _ _ queued⟩)
    (Or.imp (fun ⟨silent, e, owed⟩ => ⟨silent, e, h.owed _ _ owed⟩) id)

/-! ### Step 1 -/

theorem State.slot_tickSlots (s : State) (i : SlotNo) :
    s.tickSlots.slot i = { generation := (s.slot i).generation, body := (s.slot i).body.ticked } := by
  simp only [State.slot, State.tickSlots, vmap_get]

/-- The leases that end in step 2: those at term 0, or at grace 0. -/
def SlotBody.termOver (b : SlotBody) (l : Lease) : Prop := l.remaining = 0 ∨ b.grace? = some 0

theorem SlotBody.tickEnd_of_over {b : SlotBody} {l : Lease} (h : b.live? = some l) (zero : b.termOver l) :
    b.tickEnd = some (if b.grace? = some 0 then .revoked else .expired) := by
  cases b <;> simp_all [SlotBody.live?, SlotBody.termOver, SlotBody.grace?, SlotBody.tickEnd]
  split <;> simp_all

theorem SlotBody.tickEnd_of_not_over {b : SlotBody} {l : Lease} (h : b.live? = some l) (runs : ¬ b.termOver l) :
    b.tickEnd = none := by
  cases b <;> simp_all [SlotBody.live?, SlotBody.termOver, SlotBody.grace?, SlotBody.tickEnd]

theorem State.mem_tickEnded {n : ResNo} : n ∈ s.tickEnded ↔ ∃ (i : SlotNo) (l : Lease),
    (s.slot i).body.live? = some l ∧ l.resource = n ∧ (s.slot i).body.termOver l := by
  simp only [State.tickEnded, List.mem_filterMap]
  constructor
  · rintro ⟨i, -, e⟩
    split at e
    · rename_i ends
      obtain ⟨l, live, resource⟩ := Option.map_eq_some_iff.1 e
      refine ⟨i, l, live, resource, by_contra fun runs => ?_⟩
      simp [SlotBody.tickEnd_of_not_over live runs] at ends
    · simp at e
  · rintro ⟨i, l, live, resource, zero⟩
    refine ⟨i, List.mem_finRange i, ?_⟩
    rw [SlotBody.tickEnd_of_over live zero, live]
    simp [resource]

/-! ### Step 2 -/

/-- The turns of step 2 leave the slots that have none. -/
theorem leaves_tickSlots {ls : List SlotNo} (h : i ∉ ls) (s : State) :
    Leaves i s (ls.foldl (fun t k => t.tickSlot k) s) := by
  induction ls generalizing s with
  | nil => exact .refl
  | cons k ls ih =>
    rw [List.mem_cons, not_or] at h
    exact ((onlyAt_tickSlot k).leaves h.1).trans (ih h.2 _)

/-- Each slot has one turn: what comes before it and after it leaves the slot. -/
theorem State.tickSlots_turn (s : State) (i : SlotNo) :
    ∃ u, Leaves i s u ∧ Leaves i (u.tickSlot i) (allSlots.foldl (fun t k => t.tickSlot k) s) := by
  obtain ⟨before, after, split⟩ := List.append_of_mem (List.mem_finRange i)
  have nodup := allSlots_nodup
  rw [allSlots, split] at nodup
  rw [allSlots, split, List.foldl_append, List.foldl_cons]
  obtain ⟨-, tail, apart⟩ := List.nodup_append.1 nodup
  exact ⟨_, leaves_tickSlots (fun x => apart i x i List.mem_cons_self rfl) s,
    leaves_tickSlots (List.nodup_cons.1 tail).1 _⟩

/-- A lease that ends: LEASE_ENDED is queued and the slot FREE, or the slot is ENDED and owes it (R33, R112). -/
def State.toldLeaseEnd (s : State) (i : SlotNo) (gen : Byte) (l : Lease) (g : Option Nat) (cause : EndCause) : Prop :=
  (s.slot i = { generation := gen + 1, body := .free }
      ∧ leaseEndedNotice i gen l g cause.code ∈ (s.port (.client l.client.port)).queue)
    ∨ (s.slot i = { generation := gen, body := .ended { l with owed := some .leaseEnded } g cause }
      ∧ (l.owed = none → .slot i ∈ (s.side l.client.port).owed))

theorem State.toldLeaseEnd_endLease {l : Lease} (h : (s.slot i).body.live? = some l) (cause : EndCause) :
    (s.endLease cause i).toldLeaseEnd i (s.slot i).generation l (s.slot i).body.grace? cause := by
  by_cases hc : l.owed = none ∧ s.canTake l.client.port = true
  · obtain ⟨slot, queue⟩ := State.endLease_taken_leaves cause h hc.1 hc.2
    exact .inl ⟨slot, queue ▸ List.mem_append_right _ List.mem_cons_self⟩
  · obtain ⟨slot, -, owed⟩ := State.endLease_owed_leaves cause h (by grind)
    exact .inr ⟨slot, fun silent => by simp [owed, silent]⟩

theorem Leaves.toldLeaseEnd (h : Leaves i s t) {gen : Byte} {l : Lease} {g : Option Nat} {cause : EndCause}
    (told : s.toldLeaseEnd i gen l g cause) : t.toldLeaseEnd i gen l g cause :=
  told.imp (fun ⟨slot, queued⟩ => ⟨h.slot.trans slot, h.messages _ _ queued⟩)
    fun ⟨slot, owed⟩ => ⟨h.slot.trans slot, fun silent => h.owed _ _ (owed silent)⟩

/-- Step 2 ends a lease whose term or grace is over. -/
theorem State.tickSlots_over {l : Lease} (live : (s.slot i).body.live? = some l) (zero : (s.slot i).body.termOver l) :
    (allSlots.foldl (fun t k => t.tickSlot k) s).toldLeaseEnd i (s.slot i).generation l (s.slot i).body.grace?
      (if (s.slot i).body.grace? = some 0 then .revoked else .expired) := by
  obtain ⟨u, before, after⟩ := s.tickSlots_turn i
  rw [← before.slot] at live zero ⊢
  refine after.toldLeaseEnd ?_
  simp only [State.tickSlot, SlotBody.tickEnd_of_over live zero]
  exact State.toldLeaseEnd_endLease live _

/-- A warning is due by the directory and the lease alone (R80). -/
theorem State.warnDue_iff {l : Lease} : s.warnDue l = true ↔
    0 < (s.entry l.resource).fieldsD.warnLead ∧ l.remaining ≤ (s.entry l.resource).fieldsD.warnLead
      ∧ l.warned = false := by
  simp [State.warnDue, and_assoc]

theorem Leaves.warnDue (h : Leaves i s t) (l : Lease) : t.warnDue l = s.warnDue l := by
  rw [Bool.eq_iff_iff, State.warnDue_iff, State.warnDue_iff, State.entry, State.entry, h.entries]

/-- Step 2 leaves a lease that neither ends nor is warned. -/
theorem State.tickSlots_quiet {l : Lease} (live : (s.slot i).body.live? = some l)
    (runs : ¬ (s.slot i).body.termOver l) (silent : ∀ d, (s.slot i).body = .active l d → ¬ s.warnDue l = true) :
    (allSlots.foldl (fun t k => t.tickSlot k) s).slot i = s.slot i := by
  obtain ⟨u, before, after⟩ := s.tickSlots_turn i
  rw [← before.slot] at live runs silent ⊢
  rw [after.slot]
  simp only [State.tickSlot, SlotBody.tickEnd_of_not_over live runs, State.warn]
  split
  · rename_i x d e
    obtain rfl : x = l := by simpa [e, SlotBody.live?] using live
    rw [before.warnDue, if_neg (silent d e)]
  all_goals rfl

theorem Owed.merge_expiryWarning (old : Owed) : old.merge .expiryWarning = old := by cases old <;> rfl

/-- Step 2 warns a lease in ACTIVE that is due for it (R80). -/
theorem State.tickSlots_warns {l : Lease} {d : Option Limit} (active : (s.slot i).body = .active l d)
    (runs : ¬ (s.slot i).body.termOver l) (due : s.warnDue l = true) :
    ∃ o m, (allSlots.foldl (fun t k => t.tickSlot k) s).slot i =
        { generation := (s.slot i).generation, body := .active { l with warned := true, owed := o } d }
      ∧ m.code = 0xC4#8 ∧ m.tag = byteOf l.client.tag.val
      ∧ (allSlots.foldl (fun t k => t.tickSlot k) s).offered i l .expiryWarning m o := by
  obtain ⟨u, before, after⟩ := s.tickSlots_turn i
  rw [← before.warnDue] at due
  rw [← before.slot] at active runs ⊢
  have ends := SlotBody.tickEnd_of_not_over (b := (u.slot i).body) (l := l) (by rw [active]; rfl) runs
  have turn : u.tickSlot i = (u.setBody i (.active { l with warned := true } d)).offer i .expiryWarning := by
    rw [State.tickSlot, ends]
    simp only [State.warn, active, due, if_true]
  have slot : (u.setBody i (.active { l with warned := true } d)).slot i =
      { u.slot i with body := .active { l with warned := true } d } := by rw [State.slot_setBody, if_pos rfl]
  obtain ⟨o, result, offered⟩ := State.offer_leaves (s := u.setBody i (.active { l with warned := true } d)) (i := i)
    (l := { l with warned := true }) (by rw [slot]; rfl) .expiryWarning
  rw [turn] at after
  refine ⟨o, _, ?_, rfl, rfl, after.offered offered⟩
  rw [after.slot, result, slot]
  rfl

end Sys2Proof.Machine
end

section
/-! PROOFS. The wait pool's tick: the subtraction, and one end for each wait at 0 (R49, R51, R52; log 11). -/

namespace Sys2Proof.Machine

variable {s t : State} {j : WaitNo}

/-! ### The numbers a command names first, then the rest (log 11) -/

theorem mem_namedFirst {α : Type} [BEq α] [LawfulBEq α] {p : α → Bool} {named all : List α} (h : ∀ a, a ∈ all) (a : α) :
    a ∈ named.filter p ++ all.filter (fun x => p x && !(named.filter p).contains x) ↔ p a = true := by
  simp only [List.mem_append, List.mem_filter, h, true_and, Bool.and_eq_true, Bool.not_eq_true', List.contains_iff_mem,
    ← Bool.not_eq_true]
  by_cases hp : p a = true
  · by_cases hn : a ∈ named <;> simp [hp, hn]
  · simp [hp]

theorem nodup_namedFirst {α : Type} [BEq α] [LawfulBEq α] {p : α → Bool} {named all : List α} (hn : named.Nodup)
    (ha : all.Nodup) : (named.filter p ++ all.filter (fun x => p x && !(named.filter p).contains x)).Nodup := by
  refine List.nodup_append.2 ⟨hn.filter _, ha.filter _, fun a h b hb e => ?_⟩
  subst e
  obtain ⟨-, rest⟩ := List.mem_filter.1 hb
  rw [List.contains_iff_mem.2 h] at rest
  simp at rest

theorem State.mem_timeouts {ws : List WaitNo} : j ∈ s.timeouts ws ↔ (s.wait j).timedOut = true :=
  mem_namedFirst mem_allWaits j

theorem State.nodup_timeouts {ws : List WaitNo} (h : ws.Nodup) : (s.timeouts ws).Nodup :=
  nodup_namedFirst h allWaits_nodup

/-! ### The resources of the waits that end -/

/-- The wait is queued at the resource and has run out of time. -/
def State.timesOutAt (s : State) (n : ResNo) (j : WaitNo) : Bool :=
  decide ((s.wait j).queued?.map Wait.resource = some n) && (s.wait j).timedOut

/-- One turn for each wait that ends, at its resource. -/
theorem State.count_timeoutResources {ws : List WaitNo} (h : ws.Nodup) (n : ResNo) :
    (s.timeoutResources (s.timeouts ws)).count n = (allWaits.filter (s.timesOutAt n)).length := by
  have same : (s.timeouts ws).Perm (allWaits.filter fun j => (s.wait j).timedOut) :=
    (List.perm_ext_iff_of_nodup (State.nodup_timeouts h) (allWaits_nodup.filter _)).2 fun j => by
      simp [State.mem_timeouts, mem_allWaits]
  rw [List.count_eq_countP, State.timeoutResources, List.countP_filterMap, same.countP_eq, List.countP_filter,
    ← List.countP_eq_length_filter]
  refine List.countP_congr fun j _ => ?_
  cases e : (s.wait j).queued?.map Wait.resource <;> simp [State.timesOutAt, e]

theorem State.timeoutResources_nil {ws : List WaitNo} (h : ∀ j, (s.wait j).timedOut = false) :
    s.timeoutResources (s.timeouts ws) = [] := by
  have none : s.timeouts ws = [] := List.eq_nil_iff_forall_not_mem.2 fun j hj => by
    simp [State.mem_timeouts, h j] at hj
  rw [none]
  rfl

/-! ### The turns -/

theorem WaitEntry.timedOut_iff {x : WaitEntry} : x.timedOut = true ↔ ∃ w i, x = .queued w (.ticks 0) i := by
  cases x with
  | queued w r i => cases r <;> simp [WaitEntry.timedOut, Limit.isOver]
  | _ => simp [WaitEntry.timedOut]

/-- The queues name the QUEUED entries still when a wait has ended (R51). -/
theorem waitListLaw_endWait (lists : waitListLaw s) (cause : WaitCause) (j : WaitNo) :
    waitListLaw (s.endWait cause j) := by
  cases e : s.wait j with
  | queued w r i =>
    intro n
    obtain ⟨nodup, mem⟩ := lists n
    have ended := State.queued_endWait (s := s) cause j
    rw [State.record_endWait cause e]
    by_cases hn : n = w.resource
    · rw [if_pos hn]
      subst hn
      refine ⟨nodup.erase _, fun k => ?_⟩
      by_cases hk : k = j
      · subst hk
        simp [nodup.mem_erase_iff, ended]
      · rw [nodup.mem_erase_iff, mem, State.wait_endWait_other cause hk]
        simp [hk]
    · rw [if_neg hn]
      refine ⟨nodup, fun k => ?_⟩
      by_cases hk : k = j
      · subst hk
        rw [mem, ended, e]
        simpa [WaitEntry.queued?] using Ne.symm hn
      · rw [mem, State.wait_endWait_other cause hk]
  | _ => rwa [State.endWait_of_not_queued cause (by simp [e, WaitEntry.queued?])]

theorem waitListLaw_endWaits {js : List WaitNo} {cause : WaitCause} (lists : waitListLaw s) :
    waitListLaw (s.endWaits cause js) := by
  induction js generalizing s with
  | nil => exact lists
  | cons j js ih => exact ih (waitListLaw_endWait lists cause j)

/-- A wait that has ended does not time out any more. -/
theorem State.timedOut_endWait (cause : WaitCause) (j : WaitNo) : ((s.endWait cause j).wait j).timedOut = false := by
  have ended := State.queued_endWait (s := s) cause j
  cases e : (s.endWait cause j).wait j <;> simp_all [WaitEntry.queued?, WaitEntry.timedOut]

/-- One wait that timed out has ended: its queue has one less of them, and the other queues as many. -/
theorem State.countP_endWait (lists : waitListLaw s) {n : ResNo} (hj : j ∈ (s.record n).queue)
    (out : (s.wait j).timedOut = true) (cause : WaitCause) (k : ResNo) :
    ((s.endWait cause j).record k).queue.countP (fun x => ((s.endWait cause j).wait x).timedOut)
        + (if n = k then 1 else 0)
      = (s.record k).queue.countP fun x => (s.wait x).timedOut := by
  obtain ⟨w, i, e⟩ := WaitEntry.timedOut_iff.1 out
  have resource {m : ResNo} (hm : j ∈ (s.record m).queue) : w.resource = m := by
    simpa [e, WaitEntry.queued?] using ((lists m).2 j).1 hm
  obtain rfl := resource hj
  have others {l : List WaitNo} (hl : j ∉ l) :
      l.countP (fun x => ((s.endWait cause j).wait x).timedOut) = l.countP fun x => (s.wait x).timedOut :=
    List.countP_congr fun x hx => by rw [State.wait_endWait_other cause (ne_of_mem_of_not_mem hx hl)]
  rw [State.record_endWait cause e]
  by_cases hk : k = w.resource
  · rw [if_pos hk, if_pos hk.symm, hk]
    obtain ⟨nodup, -⟩ := lists w.resource
    rw [others nodup.not_mem_erase, (List.perm_cons_erase hj).countP_eq (fun x => (s.wait x).timedOut),
      List.countP_cons, if_pos out]
  · rw [if_neg hk, if_neg (Ne.symm hk)]
    exact others fun hm => hk (resource hm).symm

/-- The turns end each wait that has timed out, once, where each queue has a turn for each of them. -/
theorem State.endTimeouts_eq {ns : List ResNo} (lists : waitListLaw s)
    (turns : ∀ n, ns.count n = (s.record n).queue.countP fun j => (s.wait j).timedOut) :
    ∃ js, s.endTimeouts ns = s.endWaits .timeout js ∧ js.Nodup ∧ ∀ j, j ∈ js ↔ (s.wait j).timedOut = true := by
  induction ns generalizing s with
  | nil =>
    refine ⟨[], rfl, List.nodup_nil, fun j => iff_of_false List.not_mem_nil fun out => ?_⟩
    obtain ⟨w, i, e⟩ := WaitEntry.timedOut_iff.1 out
    have queued : j ∈ (s.record w.resource).queue := ((lists w.resource).2 j).2 (by simp [e, WaitEntry.queued?])
    exact absurd out (List.countP_eq_zero.1 (turns w.resource).symm j queued)
  | cons n ns ih =>
    obtain ⟨j, found⟩ : ∃ j, (s.record n).queue.find? (fun k => (s.wait k).timedOut) = some j := by
      rw [← Option.isSome_iff_exists, List.find?_isSome]
      refine List.countP_pos_iff.1 ?_
      rw [← turns n, List.count_cons_self]
      exact Nat.succ_pos _
    have queued := List.mem_of_find?_eq_some found
    have out : (s.wait j).timedOut = true := List.find?_some (p := fun k => (s.wait k).timedOut) found
    obtain ⟨js, turnsEnd, nodup, mem⟩ := ih (waitListLaw_endWait lists .timeout j) fun k => by
      have counted := State.countP_endWait lists queued out .timeout k
      rw [← turns k, List.count_cons] at counted
      simp only [beq_iff_eq] at counted
      omega
    have ended := State.timedOut_endWait (s := s) .timeout j
    have apart : j ∉ js := fun hj => by simp [(mem j).1 hj] at ended
    refine ⟨j :: js, ?_, List.nodup_cons.2 ⟨apart, nodup⟩, fun k => ?_⟩
    · rw [State.endWaits_cons, ← turnsEnd, State.endTimeouts, List.foldl_cons, found]
      rfl
    · by_cases hk : k = j
      · simp [hk, out]
      · rw [List.mem_cons, mem, State.wait_endWait_other _ hk]
        simp [hk]

/-! ### The ends -/

theorem State.wait_endWaits_other {cause : WaitCause} {js : List WaitNo} (h : j ∉ js) :
    (s.endWaits cause js).wait j = s.wait j := by
  induction js generalizing s with
  | nil => rfl
  | cons k js ih =>
    rw [List.mem_cons, not_or] at h
    rw [State.endWaits_cons, ih h.2, State.wait_endWait_other cause h.1]

/-- Each wait of a list without repetition ends: its slot is FREE, and its client told (R51, R52). -/
theorem State.endWaits_ends {cause : WaitCause} {js : List WaitNo} (nodup : js.Nodup) (booked : s.booked)
    (hj : j ∈ js) {w : Wait} {r : Limit} {i : SlotNo} (e : s.wait j = .queued w r i) :
    (s.endWaits cause js).slot i = { generation := (s.slot i).generation + 1, body := .free }
      ∧ (s.endWaits cause js).toldEnded j w cause := by
  obtain ⟨before, after, rfl⟩ := List.append_of_mem hj
  obtain ⟨-, tail, apart⟩ := List.nodup_append.1 nodup
  have fresh : j ∉ before := fun h => apart j h j List.mem_cons_self rfl
  have unnamed {k : WaitNo} (hk : k ≠ j) : (s.wait k).reserves ≠ some i := fun named =>
    hk (booked.2 k j i named (by rw [e]; rfl))
  have slot : (s.endWaits cause before).slot i = s.slot i :=
    State.slot_endWaits fun k hk => unnamed fun h => fresh (h ▸ hk)
  have here := (State.wait_endWaits_other (cause := cause) (s := s) fresh).trans e
  have turn : s.endWaits cause (before ++ j :: after) =
      ((s.endWaits cause before).endWait cause j).endWaits cause after := by
    rw [State.endWaits, List.foldl_append]
    rfl
  rw [turn]
  refine ⟨?_, ?_⟩
  · rw [State.slot_endWaits fun k hk => ?_, State.slot_endWait cause here, if_pos rfl, slot]
    have other : k ≠ j := fun h => (List.nodup_cons.1 tail).1 (h ▸ hk)
    rw [State.wait_endWait_other cause other,
      State.wait_endWaits_other fun h => apart k h k (List.mem_cons_of_mem j hk) rfl]
    exact unnamed other
  · have stays := waitsEnd_endWaits (s := (s.endWaits cause before).endWait cause j) cause after
    have ended := stays.waits j (State.queued_endWait cause j)
    exact (State.toldEnded_endWait cause here).imp (fun ⟨free, m⟩ => ⟨ended.trans free, stays.messages _ _ m⟩)
      fun ⟨owing, m⟩ => ⟨ended.trans owing, stays.owed _ _ m⟩

/-! ### The subtraction -/

theorem State.wait_tickWaits (s : State) (j : WaitNo) : s.tickWaits.wait j = (s.wait j).ticked := by
  simp only [State.wait, State.tickWaits, vmap_get]

theorem WaitEntry.queued_ticked (x : WaitEntry) : x.ticked.queued? = x.queued? := by cases x <;> rfl

theorem waitListLaw_tickWaits (lists : waitListLaw s) : waitListLaw s.tickWaits := fun n => by
  obtain ⟨nodup, mem⟩ := lists n
  refine ⟨nodup, fun j => ?_⟩
  rw [State.wait_tickWaits, WaitEntry.queued_ticked]
  exact mem j

/-- The ends of one tick, in any order the command names them (log 11): each wait at 0 ends, and no other. -/
theorem State.endTimeouts_ends {ws : List WaitNo} (h : ws.Nodup) (lists : waitListLaw s) (booked : s.booked)
    (j : WaitNo) :
    ((s.wait j).timedOut = false →
      (s.endTimeouts (s.timeoutResources (s.timeouts ws))).wait j = s.wait j)
    ∧ ∀ (w : Wait) (i : SlotNo), s.wait j = .queued w (.ticks 0) i →
      j ∉ ((s.endTimeouts (s.timeoutResources (s.timeouts ws))).record w.resource).queue
        ∧ (s.endTimeouts (s.timeoutResources (s.timeouts ws))).slot i =
            { generation := (s.slot i).generation + 1, body := .free }
        ∧ (s.endTimeouts (s.timeoutResources (s.timeouts ws))).toldEnded j w .timeout := by
  have turns (n : ResNo) : (s.timeoutResources (s.timeouts ws)).count n =
      (s.record n).queue.countP fun j => (s.wait j).timedOut := by
    obtain ⟨nodup, mem⟩ := lists n
    have same : (s.record n).queue.Perm
        (allWaits.filter fun j => decide ((s.wait j).queued?.map Wait.resource = some n)) :=
      (List.perm_ext_iff_of_nodup nodup (allWaits_nodup.filter _)).2 fun j => by simp [mem, mem_allWaits]
    rw [State.count_timeoutResources h, same.countP_eq, List.countP_filter, ← List.countP_eq_length_filter]
    exact List.countP_congr fun j _ => by simp [State.timesOutAt, and_comm]
  obtain ⟨js, turnsEnd, nodup, mem⟩ := State.endTimeouts_eq lists turns
  rw [turnsEnd]
  refine ⟨fun runs => State.wait_endWaits_other fun hj => by simp [(mem j).1 hj] at runs, fun w i e => ?_⟩
  have hj : j ∈ js := (mem j).2 (WaitEntry.timedOut_iff.2 ⟨w, i, e⟩)
  refine ⟨fun queued => ?_, State.endWaits_ends nodup booked hj e⟩
  have named := ((waitListLaw_endWaits lists w.resource).2 j).1 queued
  simp [State.queued_endWaits hj] at named

end Sys2Proof.Machine
end

section
/-! PROOFS. The pending upgrades' tick, and the rows of the three ticks (R67, R69, R75, R78). -/

namespace Sys2Proof.Machine

variable {s t : State} {i : SlotNo} {n : ResNo}

/-! ### The subtraction, and the upgrades that have run out of time (R67) -/

theorem State.slot_tickDeadlines (s : State) (i : SlotNo) :
    s.tickDeadlines.slot i = { generation := (s.slot i).generation, body := (s.slot i).body.deadlineTicked } := by
  simp only [State.slot, State.tickDeadlines, vmap_get]

theorem SlotBody.deadlineOver_iff {b : SlotBody} : b.deadlineOver = true ↔ ∃ l, b = .active l (some (.ticks 0)) := by
  cases b with
  | active l d =>
    cases d with
    | none => simp [SlotBody.deadlineOver]
    | some d => cases d <;> simp [SlotBody.deadlineOver, Limit.isOver]
  | _ => simp [SlotBody.deadlineOver]

theorem State.upgradeOver_iff : s.upgradeOver n = true ↔ ∃ (i : SlotNo) (l : Lease),
    (s.record n).upgradePending = some i ∧ (s.slot i).body = .active l (some (.ticks 0)) := by
  cases e : (s.record n).upgradePending with
  | none => simp [State.upgradeOver, e]
  | some i => simp [State.upgradeOver, e, SlotBody.deadlineOver_iff]

theorem State.mem_upgradeTimeouts {us : List ResNo} : n ∈ s.upgradeTimeouts us ↔ ∃ (i : SlotNo) (l : Lease),
    (s.record n).upgradePending = some i ∧ (s.slot i).body = .active l (some (.ticks 0)) :=
  (mem_namedFirst List.mem_finRange n).trans State.upgradeOver_iff

theorem State.nodup_upgradeTimeouts {us : List ResNo} (h : us.Nodup) : (s.upgradeTimeouts us).Nodup :=
  nodup_namedFirst h (List.nodup_finRange _)

/-! ### The ends (R69) -/

theorem State.record_endUpgrade_other {k : ResNo} (h : n ≠ k) (cause : UpgradeEndCause) :
    (s.endUpgrade k cause).record n = s.record n := by
  simp only [State.endUpgrade]
  split
  · rfl
  · rename_i i e
    rw [State.record_offer]
    simp only [State.clearUpgrade, e]
    rw [State.setBody_record, State.record_setRecord, if_neg h]

/-- The end of an upgrade changes the slot that the resource names, and no other. -/
theorem onlyAt_endUpgrade (cause : UpgradeEndCause) (h : (s.record n).upgradePending = some i) :
    OnlyAt i s (s.endUpgrade n cause) := by
  simp only [State.endUpgrade, h, State.clearUpgrade]
  exact (onlyAt_setRecord n _).trans ((onlyAt_setSlot i _).trans (onlyAt_offer i _))

theorem State.endUpgrade_of_none (cause : UpgradeEndCause) (h : (s.record n).upgradePending = none) :
    s.endUpgrade n cause = s := by
  simp only [State.endUpgrade, h]

theorem releases_endUpgrade (s : State) (n : ResNo) (cause : UpgradeEndCause) :
    s.ledger.Releases (s.endUpgrade n cause).ledger := by
  rw [ledger_endUpgrade]
  exact releases_clearUpgrade s n

theorem State.record_endUpgrades_other {ks : List ResNo} (h : n ∉ ks) (cause : UpgradeEndCause) (s : State) :
    (ks.foldl (fun t k => t.endUpgrade k cause) s).record n = s.record n := by
  induction ks generalizing s with
  | nil => rfl
  | cons k ks ih =>
    rw [List.mem_cons, not_or] at h
    exact (ih h.2 _).trans (State.record_endUpgrade_other h.1 cause)

/-- The ends of upgrades leave a slot that none of their resources names. -/
theorem leaves_endUpgrades {ks : List ResNo} (cause : UpgradeEndCause) (s : State)
    (h : ∀ k ∈ ks, (s.record k).upgradePending ≠ some i) :
    Leaves i s (ks.foldl (fun t k => t.endUpgrade k cause) s) := by
  induction ks generalizing s with
  | nil => exact .refl
  | cons k ks ih =>
    have here : Leaves i s (s.endUpgrade k cause) := by
      cases e : (s.record k).upgradePending with
      | none => rw [State.endUpgrade_of_none cause e]; exact .refl
      | some x =>
        exact (onlyAt_endUpgrade cause e).leaves fun same => h k List.mem_cons_self (same ▸ e)
    exact here.trans (ih _ fun m hm e =>
      h m (List.mem_cons_of_mem k hm) ((releases_endUpgrade s k cause).pending m i e))

/-- The end of an upgrade clears the deadline of its slot, and UPGRADE_ENDED is offered (R69). -/
theorem State.endUpgrade_leaves {l : Lease} {d : Limit} (cause : UpgradeEndCause)
    (hu : (s.record n).upgradePending = some i) (hb : (s.slot i).body = .active l (some d)) :
    ∃ o m, (s.endUpgrade n cause).slot i =
        { generation := (s.slot i).generation, body := .active { l with owed := o } none }
      ∧ m.code = 0xC3#8 ∧ m.status = cause.code ∧ m.tag = byteOf l.client.tag.val
      ∧ (s.endUpgrade n cause).offered i l (.upgradeEnded cause) m o := by
  obtain ⟨u, offers, -, slot, -⟩ := State.endUpgrade_offers cause hu hb
  obtain ⟨o, result, offered⟩ := State.offer_leaves (s := u) (i := i) (l := l) (by rw [slot]; rfl) (.upgradeEnded cause)
  rw [offers]
  refine ⟨o, _, ?_, rfl, rfl, rfl, offered⟩
  rw [result, slot]
  rfl

/-- Each upgrade of a list without repetition ends in its own turn. -/
theorem State.endUpgrades_ends {ks : List ResNo} (nodup : ks.Nodup) (hn : n ∈ ks) (upgrades : s.ledger.Upgrades)
    {l : Lease} {d : Limit} (cause : UpgradeEndCause) (hu : (s.record n).upgradePending = some i)
    (hb : (s.slot i).body = .active l (some d)) :
    (ks.foldl (fun t k => t.endUpgrade k cause) s).record n = { s.record n with upgradePending := none }
      ∧ ∃ o m, (ks.foldl (fun t k => t.endUpgrade k cause) s).slot i =
          { generation := (s.slot i).generation, body := .active { l with owed := o } none }
        ∧ m.code = 0xC3#8 ∧ m.status = cause.code ∧ m.tag = byteOf l.client.tag.val
        ∧ (ks.foldl (fun t k => t.endUpgrade k cause) s).offered i l (.upgradeEnded cause) m o := by
  obtain ⟨before, after, rfl⟩ := List.append_of_mem hn
  obtain ⟨-, tail, apart⟩ := List.nodup_append.1 nodup
  have early : n ∉ before := fun h => apart n h n List.mem_cons_self rfl
  have late : n ∉ after := (List.nodup_cons.1 tail).1
  have only {k : ResNo} (e : (s.record k).upgradePending = some i) : k = n :=
    Option.some.inj (((upgrades.named k i).1 e).symm.trans ((upgrades.named n i).1 hu))
  have record := State.record_endUpgrades_other early cause s
  have leaves := leaves_endUpgrades cause s fun k hk e => early (only e ▸ hk)
  have keeps : s.ledger.Releases (before.foldl (fun t k => t.endUpgrade k cause) s).ledger :=
    .foldl (fun t k => releases_endUpgrade t k cause) before s
  replace keeps (k : ResNo) (e) := only (keeps.pending k i e)
  rw [List.foldl_append, List.foldl_cons]
  generalize before.foldl (fun t k => t.endUpgrade k cause) s = u at record leaves keeps ⊢
  rw [← record] at hu ⊢
  rw [← leaves.slot] at hb ⊢
  have stays := leaves_endUpgrades cause (u.endUpgrade n cause) fun k hk e =>
    late (keeps k ((releases_endUpgrade u n cause).pending k i e) ▸ hk)
  obtain ⟨o, m, slot, code, status, tag, offered⟩ := State.endUpgrade_leaves cause hu hb
  exact ⟨(State.record_endUpgrades_other late cause _).trans (State.record_endUpgrade hu hb cause), o, m,
    stays.slot.trans slot, code, status, tag, stays.offered offered⟩

/-! ### The rows -/

theorem exec_leaseTableTick (hc : s.counting = true) (due : 0 < s.leaseTicks) :
    exec .leaseTableTick s = .next (State.leaseTick { s with leaseTicks := s.leaseTicks - 1 }) := by
  simp [exec, execLeaseTableTick, hc, due]

theorem exec_waitPoolTick (hc : s.counting = true) (due : 0 < s.waitTicks) (ws : List WaitNo) :
    exec (.waitPoolTick ws) s = .next (State.waitTick { s with waitTicks := s.waitTicks - 1 } ws) := by
  simp [exec, execWaitPoolTick, hc, due]

theorem exec_pendingUpgradesTick (hc : s.counting = true) (due : 0 < s.upgradeTicks) (us : List ResNo) :
    exec (.pendingUpgradesTick us) s = .next (State.upgradeTick { s with upgradeTicks := s.upgradeTicks - 1 } us) := by
  simp [exec, execPendingUpgradesTick, hc, due]

/-- While FROZEN, and where no tick is due, no table takes one (R75, R78). -/
theorem ticks_idle (s : State) (ws : List WaitNo) (us : List ResNo) :
    (s.run = .frozen ∨ s.leaseTicks = 0 → exec .leaseTableTick s = .next s)
    ∧ (s.run = .frozen ∨ s.waitTicks = 0 → exec (.waitPoolTick ws) s = .next s)
    ∧ (s.run = .frozen ∨ s.upgradeTicks = 0 → exec (.pendingUpgradesTick us) s = .next s) := by
  refine ⟨fun h => ?_, fun h => ?_, fun h => ?_⟩ <;> rcases h with frozen | none
  all_goals simp [exec, execLeaseTableTick, execWaitPoolTick, execPendingUpgradesTick, State.counting_of_frozen, *]

end Sys2Proof.Machine
end

section
/-! PROOFS. The three ticks together: each subtracts, then ends what is at 0 (R49, R67, R79). -/

namespace Sys2Proof.Machine

variable {s t : State} {i : SlotNo}

/-- An EXPIRY_WARNING merges into any notice owed: it is of the lowest rank (R113). -/
theorem State.offered_warning {l : Lease} {m : Message} {o : Option Owed} (h : s.offered i l .expiryWarning m o) :
    (o = l.owed ∧ m ∈ (s.port (.client l.client.port)).queue)
      ∨ (l.owed = none ∧ o = some .expiryWarning ∧ .slot i ∈ (s.side l.client.port).owed)
      ∨ (l.owed ≠ none ∧ o = l.owed) :=
  h.imp_right <| Or.imp_right fun ⟨old, owing, e⟩ => by
    rw [Owed.merge_expiryWarning, ← owing] at e
    exact ⟨by simp [owing], e⟩

/-- The subtraction changes no generation (R79). -/
theorem State.generation_tickSlots (s : State) (i : SlotNo) : (s.tickSlots.slot i).generation = (s.slot i).generation := by
  rw [State.slot_tickSlots]

/-- A lease that the subtraction brings to 0 ends in step 2 (R79, R81, R88). -/
theorem State.leaseTick_over {l : Lease} (live : (s.tickSlots.slot i).body.live? = some l)
    (zero : (s.tickSlots.slot i).body.termOver l) :
    (allSlots.foldl (fun t k => t.tickSlot k) s.tickSlots).toldLeaseEnd i (s.slot i).generation l
      (s.tickSlots.slot i).body.grace? (if (s.tickSlots.slot i).body.grace? = some 0 then .revoked else .expired) :=
  s.generation_tickSlots i ▸ State.tickSlots_over live zero

/-- An ACTIVE lease is over by its term alone (R79). -/
theorem SlotBody.not_termOver_active {b : SlotBody} {l : Lease} {d : Option Limit} (h : b = .active l d)
    (left : 0 < l.remaining) : ¬ b.termOver l := by
  simp [SlotBody.termOver, h, SlotBody.grace?, left.ne']

theorem SlotBody.not_termOver_revoking {b : SlotBody} {l : Lease} {k : Nat} (h : b.grace? = some (k + 1))
    (left : 0 < l.remaining) : ¬ b.termOver l := by
  simp [SlotBody.termOver, h, left.ne']

/-- The pending upgrades agree with the deadlines still when these have lost 1 (R66). -/
theorem upgrades_tickDeadlines (lease : leaseLaw s) (upgrade : upgradeLaw s) : s.tickDeadlines.ledger.Upgrades := by
  rw [ledger_tickDeadlines]
  exact (upgradeLaw_iff (leaseLaw_iff.1 lease).held).1 upgrade

/-- Settles O55, one clause for each table: the subtraction, then the turns of the ends, each leaving what is
elsewhere. -/
theorem tableTicksSubtractThenEnd : Obligations.TableTicksSubtractThenEnd := by
  refine ⟨ticks_idle, fun s serving run due => ?_, fun s ws serving run due => ?_, fun s us serving run due => ?_⟩ <;>
    have counting := State.counting_of_run serving run
  · refine ⟨exec_leaseTableTick counting due, rfl, fun i => ?_, fun n => State.mem_tickEnded, fun i l live =>
      ⟨State.leaseTick_over (s := { s with leaseTicks := s.leaseTicks - 1 }) live, fun left k grace => ?_,
        fun left d active => ⟨fun silent => ?_, fun lead within unwarned => ?_⟩⟩⟩
    · rw [State.slot_tickSlots]
      change ({ generation := (s.slot i).generation, body := (s.slot i).body.ticked } : Slot) = _
      cases (s.slot i).body <;> rfl
    · refine State.tickSlots_quiet live (SlotBody.not_termOver_revoking grace left) fun d active => ?_
      simp [active, SlotBody.grace?] at grace
    · refine State.tickSlots_quiet live (SlotBody.not_termOver_active active left) fun _ _ warns => ?_
      obtain ⟨lead, within, unwarned⟩ := State.warnDue_iff.1 warns
      rcases silent with none | early | warned
      · exact absurd none lead.ne'
      · exact absurd within early.not_ge
      · simp [warned] at unwarned
    · obtain ⟨o, m, slot, code, tag, offered⟩ := State.tickSlots_warns active (SlotBody.not_termOver_active active left)
        (State.warnDue_iff.2 ⟨lead, within, unwarned⟩)
      rw [State.generation_tickSlots] at slot
      exact ⟨o, slot, (State.offered_warning offered).imp_left fun ⟨e, queued⟩ => ⟨e, m, queued, code, tag⟩⟩
  · refine ⟨exec_waitPoolTick counting due ws, rfl, fun j => ?_, fun runs => ?_, fun lease lists nodup =>
      ⟨State.count_timeoutResources nodup, fun j => ?_⟩⟩
    · rw [State.wait_tickWaits]
      change (s.wait j).ticked = _
      cases s.wait j with
      | queued w r i => cases r <;> rfl
      | _ => rfl
    · have quiet (j : WaitNo) : (({ s with waitTicks := s.waitTicks - 1 } : State).tickWaits.wait j).timedOut = false := by
        rw [← Bool.not_eq_true, WaitEntry.timedOut_iff]
        rintro ⟨w, i, e⟩
        exact runs j w i e
      rw [exec_waitPoolTick counting due ws, State.waitTick, State.timeoutResources_nil quiet]
      rfl
    · exact State.endTimeouts_ends nodup (waitListLaw_tickWaits (s := { s with waitTicks := s.waitTicks - 1 }) lists)
        (tidy_tickWaits.booked (s := { s with waitTicks := s.waitTicks - 1 }) (booked_of_leaseLaw lease)) j
  · refine ⟨exec_pendingUpgradesTick counting due us, rfl, fun i => ?_, fun n => State.mem_upgradeTimeouts,
      State.nodup_upgradeTimeouts, fun runs => ?_, fun lease upgrade nodup => ⟨fun n out => ?_, fun n i l ends hu hb => ?_⟩⟩
    · rw [State.slot_tickDeadlines]
      change ({ generation := (s.slot i).generation, body := (s.slot i).body.deadlineTicked } : Slot) = _
      cases (s.slot i).body with
      | active l d =>
        cases d with
        | none => rfl
        | some d => cases d <;> rfl
      | _ => rfl
    · have none : ({ s with upgradeTicks := s.upgradeTicks - 1 } : State).tickDeadlines.upgradeTimeouts us = [] :=
        List.eq_nil_iff_forall_not_mem.2 fun n hn => by
          obtain ⟨i, l, -, e⟩ := State.mem_upgradeTimeouts.1 hn
          exact runs i l e
      rw [exec_pendingUpgradesTick counting due us, State.upgradeTick, none]
      rfl
    · exact State.record_endUpgrades_other out .timeout _
    · obtain ⟨record, o, m, slot, code, status, tag, offered⟩ := State.endUpgrades_ends
        (State.nodup_upgradeTimeouts nodup) ends
        (upgrades_tickDeadlines (s := { s with upgradeTicks := s.upgradeTicks - 1 }) lease upgrade) .timeout hu hb
      rw [State.slot_tickDeadlines] at slot
      exact ⟨record, o, slot, offered.imp_left fun ⟨e, queued⟩ => ⟨e, m, queued, code, status, tag⟩⟩

end Sys2Proof.Machine
end

section
/-! PROOFS. The requests of a holder on its own lease: the refusals of RENEW (R82, R83), and UPGRADE, CANCEL_UPGRADE and
DOWNGRADE (R64, R65, R66, R71, R73). -/

namespace Sys2Proof.Machine

variable {s : State} {c : Client} {f : Frame} {i : SlotNo} {l : Lease}

/-- A client row carries out a well-formed request of its kind as its decision says, and answers it. -/
theorem exec_decided {x : Instr} {k : Kind} {d : Client → Frame → State → Decision} {u : State} {a : Reply}
    (row : exec x s = .next (s.clientRequest k d)) (asks : s.clientAsks k c f) (decided : d c f s = (u, a)) :
    exec x s = .next (u.clientAnswer k c f a) := by
  rw [row, State.clientRequest_asks asks, decided]

/-! ### RENEW (R82, R83) -/

/-- A resource is contended for a slot by a wait, or by a pending upgrade of another slot (R83). -/
theorem State.contended_iff {n : ResNo} :
    s.contended i n = true ↔ (s.record n).queue ≠ [] ∨ ∃ k, (s.record n).upgradePending = some k ∧ k ≠ i := by
  cases e : (s.record n).upgradePending <;> simp [State.contended, e]

/-- Checks 5 to 8 of R82, each with those before it passed. -/
theorem State.renewRefusal_some {e : Fields} (entry : s.entry l.resource = .defined e) :
    ((s.slot i).body.isRevoking = true → s.renewRefusal i l = some .revoking)
    ∧ ((s.slot i).body.isRevoking = false →
      ((s.record l.resource).activationPending = true → s.renewRefusal i l = some .superseding)
      ∧ ((s.record l.resource).activationPending = false →
        (0 < e.renewLimit ∧ l.renewals = e.renewLimit → s.renewRefusal i l = some .renewLimit)
        ∧ (¬(0 < e.renewLimit ∧ l.renewals = e.renewLimit) → e.contention = .yields → s.contended i l.resource = true →
          s.renewRefusal i l = some .contended))) := by
  simp only [State.renewRefusal, entry, Entry.fieldsD]
  refine ⟨fun revoking => if_pos revoking, fun active => ?_⟩
  simp only [active, Bool.false_eq_true, if_false]
  refine ⟨fun marked => if_pos marked, fun unmarked => ?_⟩
  simp only [unmarked, Bool.false_eq_true, if_false]
  refine ⟨fun limit => if_pos limit, fun below yields contended => ?_⟩
  rw [if_neg below, if_pos ⟨yields, contended⟩]

/-- A RENEW of the client's own lease that its checks refuse. -/
theorem renewDecision_refused {st : Status} (handle : s.handleFor c f i l) (h : s.renewRefusal i l = some st) :
    renewDecision c f s = s.refuse st := by
  simp only [renewDecision, State.withHandle_for handle, h]

/-! ### UPGRADE (R64, R65, R66) -/

/-- Checks 6 to 10 of R64, each with those before it passed. -/
theorem State.upgradeRefusal_some :
    ((s.slot i).body.isRevoking = true → s.upgradeRefusal i l = some .revoking)
    ∧ ((s.slot i).body.isRevoking = false →
      (l.mode = .exclusive → s.upgradeRefusal i l = some .notShared)
      ∧ (l.mode = .shared →
        ((s.record l.resource).activationPending = true → s.upgradeRefusal i l = some .superseding)
        ∧ ((s.record l.resource).activationPending = false →
          ((s.record l.resource).fenceSpent = true → s.upgradeRefusal i l = some .fenceSpent)
          ∧ ((s.record l.resource).fenceSpent = false → (s.record l.resource).upgradePending ≠ none →
            s.upgradeRefusal i l = some .upgradeConflict)))) := by
  simp only [State.upgradeRefusal]
  refine ⟨fun revoking => if_pos revoking, fun active => ?_⟩
  simp only [active, Bool.false_eq_true, if_false]
  refine ⟨fun exclusive => if_pos exclusive, fun shared => ?_⟩
  simp only [shared, reduceCtorEq, if_false]
  refine ⟨fun marked => if_pos marked, fun unmarked => ?_⟩
  simp only [unmarked, Bool.false_eq_true, if_false]
  refine ⟨fun spent => if_pos spent, fun fences pending => ?_⟩
  simp only [fences, Bool.false_eq_true, if_false]
  exact if_pos (Option.isSome_iff_ne_none.2 pending)

/-- An UPGRADE that passes them all. -/
theorem State.upgradeRefusal_none (active : (s.slot i).body.isRevoking = false) (shared : l.mode = .shared)
    (unmarked : (s.record l.resource).activationPending = false) (fences : (s.record l.resource).fenceSpent = false)
    (free : (s.record l.resource).upgradePending = none) : s.upgradeRefusal i l = none := by
  simp only [State.upgradeRefusal, active, shared, unmarked, fences, free, reduceCtorEq, Bool.false_eq_true,
    Option.isSome_none, if_false]

section
variable (ready : s.part = .ready) (handle : s.handleFor c f i l)

include ready handle

/-- An UPGRADE of the client's own lease, in READY, that its checks refuse. -/
theorem upgradeDecision_refused {st : Status} (h : s.upgradeRefusal i l = some st) :
    upgradeDecision c f s = s.refuse st := by
  simp only [upgradeDecision, ready, reduceCtorEq, if_false, State.withHandle_for handle, h]

/-- One that they let pass: at once for a sole holder (R65), and for one of several pending (R66), or BUSY where it may
not wait (R64). -/
theorem upgradeDecision_passed (h : s.upgradeRefusal i l = none) :
    upgradeDecision c f s =
      if (s.record l.resource).holders = [i] then
        ((s.upgradeSlot i l.resource).exhaust l.resource,
          { status := .upgraded, extra := (s.nextFence l.resource).bytes })
      else if f.word 6 = 0 ∨ (s.entry l.resource).fieldsD.waitAllowed = false then s.refuse .busy
      else (s.recordUpgrade i l (f.word 6), Reply.bare .queued) := by
  simp only [upgradeDecision, ready, reduceCtorEq, if_false, State.withHandle_for handle, h]

end

/-- Settles O35: each refusal from the check that makes it, the ones before it passed. -/
theorem renewAndUpgradeRefused : Obligations.RenewAndUpgradeRefused := by
  intro s c f i l e ready handle entry r
  refine ⟨fun asks => ?_, fun asks => ?_⟩
  · intro refused
    have early {st : Status} (h : s.renewRefusal i l = some st) : refused st :=
      exec_decided (d := renewDecision) rfl asks (renewDecision_refused handle h)
    obtain ⟨revoking, checks⟩ := State.renewRefusal_some (i := i) entry
    refine ⟨fun h => early (revoking h), fun active => ?_⟩
    obtain ⟨superseding, checks⟩ := checks active
    refine ⟨fun h => early (superseding h), fun unmarked => ?_⟩
    obtain ⟨limit, contended⟩ := checks unmarked
    exact ⟨fun h => early (limit h), fun below yields h => early (contended below yields (State.contended_iff.2 h))⟩
  · intro refused
    have early {st : Status} (h : s.upgradeRefusal i l = some st) : refused st :=
      exec_decided (d := upgradeDecision) rfl asks (upgradeDecision_refused ready handle h)
    obtain ⟨revoking, checks⟩ := State.upgradeRefusal_some (s := s) (i := i) (l := l)
    refine ⟨fun h => early (revoking h), fun active => ?_⟩
    obtain ⟨exclusive, checks⟩ := checks active
    refine ⟨fun h => early (exclusive h), fun shared => ?_⟩
    obtain ⟨superseding, checks⟩ := checks shared
    refine ⟨fun h => early (superseding h), fun unmarked => ?_⟩
    obtain ⟨spent, checks⟩ := checks unmarked
    refine ⟨fun h => early (spent h), fun fences => ?_⟩
    refine ⟨fun h => early (checks fences h), fun free several h => exec_decided (d := upgradeDecision) rfl asks ?_⟩
    have passed := State.upgradeRefusal_none active shared unmarked fences free
    have busy : f.word 6 = 0 ∨ (s.entry l.resource).fieldsD.waitAllowed = false := by rw [entry]; exact h
    rw [upgradeDecision_passed ready handle passed, if_neg several, if_pos busy]
    rfl

section
variable {d : Option Limit} (body : (s.slot i).body = .active l d)

include body

/-- An upgrade of a lease in ACTIVE, where none is pending: the mode, the next fence, and no deadline (R65). -/
theorem State.upgradeSlot_active {n : ResNo} (free : (s.record n).upgradePending = none) :
    s.upgradeSlot i n =
      (s.setRecord n { s.record n with lastSeq := (s.record n).lastSeq + 1 }).setSlot i
        { generation := (s.slot i).generation
          body := .active { l with mode := .exclusive, fence := s.nextFence n } none } := by
  simp only [State.upgradeSlot, State.setBody, State.setRecord_slot, body, SlotBody.dropDeadline, SlotBody.mapLease]
  rw [← free]

/-- A pending upgrade of a lease in ACTIVE is cleared (R69). -/
theorem State.clearUpgrade_active {n : ResNo} (pending : (s.record n).upgradePending = some i) :
    s.clearUpgrade n =
      (s.setRecord n { s.record n with upgradePending := none }).setSlot i
        { generation := (s.slot i).generation, body := .active l none } := by
  simp only [State.clearUpgrade, pending, State.setBody, State.setRecord_slot, body, SlotBody.dropDeadline]

/-- A downgrade of a lease in ACTIVE changes its mode alone (R73). -/
theorem State.downgradeSlot_active :
    s.downgradeSlot i = s.setSlot i
      { generation := (s.slot i).generation, body := .active { l with mode := .shared } d } := by
  simp only [State.downgradeSlot, State.setBody, body, SlotBody.mapLease]

/-- A lease in ACTIVE is not in REVOKING. -/
theorem State.not_revoking_of_active : (s.slot i).body.isRevoking = false := by
  rw [body]
  rfl

end

/-- Settles O36: past the checks of R64, the upgrade at once and the pending one are written out. -/
theorem upgradeAtOnceOrPending : Obligations.UpgradeAtOnceOrPending := by
  intro s c f i l d e asks ready handle body entry shared unmarked fences free
  have active := State.not_revoking_of_active body
  have decided := upgradeDecision_passed ready handle (State.upgradeRefusal_none active shared unmarked fences free)
  refine ⟨fun sole => ⟨s.upgradeSlot i l.resource, ?_, State.upgradeSlot_active body free⟩,
    fun several limit allowed => ?_⟩
  · rw [if_pos sole] at decided
    exact exec_decided (d := upgradeDecision) rfl asks decided
  · have waits : ¬(f.word 6 = 0 ∨ (s.entry l.resource).fieldsD.waitAllowed = false) := by
      simp [entry, Entry.fieldsD, limit, allowed]
    rw [if_neg several, if_neg waits] at decided
    exact exec_decided (d := upgradeDecision) rfl asks decided

/-! ### CANCEL_UPGRADE and DOWNGRADE (R71, R73) -/

/-- A CANCEL_UPGRADE of the client's own lease: the pending upgrade of its slot, or no other change (R71). -/
theorem cancelUpgradeDecision_for (handle : s.handleFor c f i l) :
    ((s.record l.resource).upgradePending ≠ some i → cancelUpgradeDecision c f s = s.refuse .noUpgrade)
    ∧ ((s.record l.resource).upgradePending = some i →
      cancelUpgradeDecision c f s = ((s.clearUpgrade l.resource).grantRule l.resource, Reply.bare .ok)) := by
  simp only [cancelUpgradeDecision, State.withHandle_for handle, State.upgradeNames, decide_eq_true_eq]
  exact ⟨fun other => if_neg other, fun pending => if_pos pending⟩

/-- Checks 5 to 7 of R73, each with those before it passed. -/
theorem State.downgradeRefusal_some {e : Fields} (entry : s.entry l.resource = .defined e) :
    ((s.slot i).body.isRevoking = true → s.downgradeRefusal i l = some .revoking)
    ∧ ((s.slot i).body.isRevoking = false →
      (l.mode = .shared → s.downgradeRefusal i l = some .notExclusive)
      ∧ (l.mode = .exclusive → e.kind = .exclusiveOnly → s.downgradeRefusal i l = some .modeNotAllowed)) := by
  simp only [State.downgradeRefusal, entry, Entry.fieldsD]
  refine ⟨fun revoking => if_pos revoking, fun active => ?_⟩
  simp only [active, Bool.false_eq_true, if_false]
  refine ⟨fun shared => if_pos shared, fun exclusive only => ?_⟩
  simp only [exclusive, only, reduceCtorEq, if_false, if_true]

/-- A DOWNGRADE that passes them all. -/
theorem State.downgradeRefusal_none {e : Fields} (active : (s.slot i).body.isRevoking = false)
    (exclusive : l.mode = .exclusive) (entry : s.entry l.resource = .defined e) (shareable : e.kind = .shareable) :
    s.downgradeRefusal i l = none := by
  simp only [State.downgradeRefusal, active, exclusive, entry, Entry.fieldsD, shareable, reduceCtorEq,
    Bool.false_eq_true, if_false]

section
variable (handle : s.handleFor c f i l)

include handle

theorem downgradeDecision_refused {st : Status} (h : s.downgradeRefusal i l = some st) :
    downgradeDecision c f s = s.refuse st := by
  simp only [downgradeDecision, State.withHandle_for handle, h]

theorem downgradeDecision_passed (h : s.downgradeRefusal i l = none) :
    downgradeDecision c f s =
      ((s.downgradeSlot i).grantRule l.resource, { status := .ok, extra := l.fence.bytes }) := by
  simp only [downgradeDecision, State.withHandle_for handle, h]

end

/-- Settles O38: each refusal from the check that makes it, and past the checks the change to the slot, then the grant
rule. -/
theorem cancelUpgradeAndDowngrade : Obligations.CancelUpgradeAndDowngrade := by
  intro s c f i l d e handle entry
  refine ⟨fun asks => ?_, fun asks => ?_⟩
  · obtain ⟨other, own⟩ := cancelUpgradeDecision_for handle
    refine ⟨fun h => exec_decided (d := cancelUpgradeDecision) rfl asks (other h), fun pending body => ?_⟩
    rw [← State.clearUpgrade_active body pending]
    exact exec_decided (d := cancelUpgradeDecision) rfl asks (own pending)
  · intro refused
    have early {st : Status} (h : s.downgradeRefusal i l = some st) : refused st :=
      exec_decided (d := downgradeDecision) rfl asks (downgradeDecision_refused handle h)
    obtain ⟨revoking, checks⟩ := State.downgradeRefusal_some (i := i) entry
    refine ⟨fun h => early (revoking h), fun body => ?_⟩
    obtain ⟨shared, checks⟩ := checks (State.not_revoking_of_active body)
    refine ⟨fun h => early (shared h), fun exclusive only => early (checks exclusive only),
      fun exclusive shareable => ?_⟩
    have passed := State.downgradeRefusal_none (State.not_revoking_of_active body) exclusive entry shareable
    rw [← State.downgradeSlot_active body]
    exact exec_decided (d := downgradeDecision) rfl asks (downgradeDecision_passed handle passed)

end Sys2Proof.Machine
end

section
/-! PROOFS. The timebase: SET_TIMEBASE and TICK (R75, R76, R77). -/

namespace Sys2Proof.Machine

variable {s : State} {f : Frame}

/-- A supervisor row carries out a well-formed request of its kind as its decision says, and answers it. -/
theorem exec_supDecided {x : Instr} {k : Kind} {d : Frame → State → Decision} {u : State} {a : Reply}
    (row : exec x s = .next (s.supRequest k d)) (asks : s.supAsks k f) (decided : d f s = (u, a)) :
    exec x s = .next (u.supAnswer k f a) := by
  rw [row, State.supRequest_asks asks, decided]

/-! ### SET_TIMEBASE (R77) -/

theorem runOf_none {b : Byte} (h : 1 < b.toNat) : runOf? b = none := by
  have zero : b ≠ 0x00#8 := by rintro rfl; simp at h
  have one : b ≠ 0x01#8 := by rintro rfl; simp at h
  simp only [runOf?, zero, one, if_false]

/-- 00h is RUN, and 01h FROZEN (R77). -/
theorem runOf_some {b : Byte} (h : b.toNat ≤ 1) : runOf? b = some (if b = 0x00#8 then .run else .frozen) := by
  simp only [runOf?]
  split
  · rfl
  · rename_i zero
    have one : b = 0x01#8 := by
      rw [← BitVec.toNat_inj] at zero ⊢
      simp only [BitVec.toNat_ofNat] at zero ⊢
      omega
    rw [if_pos one]

theorem setTimebaseDecision_refused
    (h : (byteAt f 4).toNat = 0 ∨ 64 < (byteAt f 4).toNat ∨ 1 < (byteAt f 5).toNat) :
    setTimebaseDecision f s = s.refuse .badRequest := by
  simp only [setTimebaseDecision]
  split
  · rfl
  · rename_i run
    refine if_neg fun range => ?_
    rcases h with low | high | code
    · omega
    · omega
    · simp [runOf_none code] at run

theorem setTimebaseDecision_passed (low : 1 ≤ (byteAt f 4).toNat) (high : (byteAt f 4).toNat ≤ 64)
    (code : (byteAt f 5).toNat ≤ 1) :
    setTimebaseDecision f s =
      (s.setTimebase (byteAt f 4).toNat (if byteAt f 5 = 0x00#8 then .run else .frozen), Reply.bare .ok) := by
  simp only [setTimebaseDecision, runOf_some code, low, high, and_self, if_true]

/-- Settles O45: the form, then the operands, then the timebase set. -/
theorem setTimebaseRestartsDivider : Obligations.SetTimebaseRestartsDivider := fun _ _ =>
  ⟨fun malformed => congrArg Host.Outcome.next (State.supRequest_turnedAway malformed), fun asks =>
    ⟨fun refused => exec_supDecided (d := setTimebaseDecision) rfl asks (setTimebaseDecision_refused refused),
      fun low high code =>
        exec_supDecided (d := setTimebaseDecision) rfl asks (setTimebaseDecision_passed low high code)⟩⟩

/-! ### TICK (R75, R76) -/

theorem exec_tick (periods : Nat) : exec (.tick periods) s = .next (if s.counting then s.count periods else s) := rfl

/-- While the part is STARTING nothing is counted (R76). -/
theorem State.counting_of_starting (h : s.part = .starting) : s.counting = false := by
  simp [State.counting, State.serving, h]

/-- Settles O54: the count where the timebase counts, and nothing elsewhere. -/
theorem tickCountsPeriods : Obligations.TickCountsPeriods := by
  refine fun s periods => ⟨fun serving run => ?_, fun still => ?_⟩
  · rw [exec_tick, if_pos (State.counting_of_run serving run)]
    rfl
  · have idle : s.counting = false := still.elim State.counting_of_frozen State.counting_of_starting
    rw [exec_tick, idle]
    rfl

end Sys2Proof.Machine
end

section
/-! PROOFS. RENEW past its checks (R82). -/

namespace Sys2Proof.Machine

variable {s : State} {c : Client} {f : Frame} {i : SlotNo} {l : Lease} {d : Option Limit}

/-- A RENEW that passes checks 5 to 8 of R82. -/
theorem State.renewRefusal_none {e : Fields} (active : (s.slot i).body.isRevoking = false)
    (entry : s.entry l.resource = .defined e) (unmarked : (s.record l.resource).activationPending = false)
    (below : ¬(0 < e.renewLimit ∧ l.renewals = e.renewLimit))
    (calm : ¬(e.contention = .yields ∧ s.contended i l.resource = true)) : s.renewRefusal i l = none := by
  simp only [State.renewRefusal, active, unmarked, entry, Entry.fieldsD, Bool.false_eq_true, if_false, if_neg below,
    if_neg calm]

theorem renewDecision_passed (handle : s.handleFor c f i l) (h : s.renewRefusal i l = none) :
    renewDecision c f s =
      (s.renewSlot i l ((s.entry l.resource).fieldsD.termFor (f.word 6)),
        { status := .ok
          extra := be16 ((s.entry l.resource).fieldsD.termFor (f.word 6)) ++ [byteOf (renewedCount l.renewals)] }) := by
  simp only [renewDecision, State.withHandle_for handle, h]

/-- The lease after its renewal, an owed EXPIRY_WARNING withdrawn (R82). -/
def Lease.afterRenewal (term : Nat) (l : Lease) : Lease :=
  { l.renewed term with owed := if l.owed = some .expiryWarning then none else l.owed }

/-- A renewal of a lease in ACTIVE: the slot takes its new lease, and leaves the owed list with the warning it owed
(R82, R112). -/
theorem State.renewSlot_active (body : (s.slot i).body = .active l d) (term : Nat) :
    s.renewSlot i l term =
      (if l.owed = some .expiryWarning then s.leaveOwed l.client.port (.slot i) else s).setSlot i
        { generation := (s.slot i).generation, body := .active (l.afterRenewal term) d } := by
  by_cases owing : l.owed = some .expiryWarning
  · simp only [State.renewSlot, if_pos owing, State.withdraw, State.dropOwed, State.leaveOwed_slot, body, State.setOwed,
      State.setBody, State.setSlot_setSlot, State.slot_setSlot, if_true, SlotBody.mapLease, Lease.afterRenewal,
      Lease.renewed]
  · simp only [State.renewSlot, if_neg owing, State.setBody, body, SlotBody.mapLease, Lease.afterRenewal, Lease.renewed]

/-- Settles O34: past the checks of R82, the renewal of the slot is written out. -/
theorem renewReplacesTerm : Obligations.RenewReplacesTerm := by
  intro s c f i l d e term asks handle body entry unmarked below calm termFor
  have passed := State.renewRefusal_none (State.not_revoking_of_active body) entry unmarked below calm
  have decided := renewDecision_passed handle passed
  obtain ⟨-, -, -, rfl⟩ := handle
  have term_eq : (s.entry l.resource).fieldsD.termFor (f.word 6) = term := by rw [entry]; exact termFor.symm
  rw [term_eq, State.renewSlot_active body] at decided
  refine ⟨_, exec_decided (d := renewDecision) rfl asks decided, ?_, fun k hk => ?_, ?_, ?_⟩
  · rw [State.slot_setSlot, if_pos rfl]
    rfl
  · rw [State.slot_setSlot, if_neg hk]
    split <;> rfl
  · rw [State.setSlot_side]
    split
    · rw [State.side_leaveOwed, if_pos rfl]
    · rfl
  · split <;> exact ⟨rfl, rfl, rfl, rfl⟩

end Sys2Proof.Machine
end

section
/-! PROOFS. REVOKE and REVOKE_RESOURCE (R85, R111, R113, R130, R131). -/

namespace Sys2Proof.Machine

variable {s t : State} {f : Frame} {i : SlotNo} {l : Lease} {d : Option Limit} {grace : Nat}

/-! ### The operands (R158) -/

/-- A selector above 01h, and 01h with a grace byte that is not 00h, are malformed. -/
theorem graceOf_none {selector b : Byte} (h : 1 < selector.toNat ∨ (selector = 0x01#8 ∧ b ≠ 0x00#8)) :
    graceOf? selector b = none := by
  rcases h with high | ⟨rfl, set⟩
  · have zero : selector ≠ 0x00#8 := by rintro rfl; simp at high
    have one : selector ≠ 0x01#8 := by rintro rfl; simp at high
    simp only [graceOf?, zero, one, false_and, if_false]
  · simp [graceOf?, set]

/-! ### A lease in ACTIVE revoked with a grace (R85) -/

/-- The state in which REVOKE_NOTICE is offered, and what has changed in it. -/
theorem State.revokeSlot_offers (body : (s.slot i).body = .active l d) (graced : 0 < grace) :
    ∃ t : State, s.revokeSlot i grace = t.offer i .revokeNotice
      ∧ t.slot i = { generation := (s.slot i).generation, body := .revoking l grace }
      ∧ (t.record l.resource).holders = (s.record l.resource).holders
      ∧ (t.record l.resource).upgradePending ≠ some i ∧ t.ports = s.ports ∧ t.sides = s.sides := by
  simp only [State.revokeSlot, body, graced.ne', if_false]
  refine ⟨_, rfl, ?_⟩
  by_cases pending : (s.record l.resource).upgradePending = some i
  · simp [State.upgradeNames, pending, State.slot_setBody, State.record_setRecord]
  · simp [State.upgradeNames, pending, State.slot_setBody]

/-- The notice of a lease in REVOKING whose upgrade is not pending (R35, R85). -/
theorem State.slotNotice_revokeNotice (body : (s.slot i).body = .revoking l grace)
    (unnamed : (s.record l.resource).upgradePending ≠ some i) :
    s.slotNotice i l .revokeNotice = revokeNotice i (s.slot i).generation l grace := by
  simp [State.slotNotice, revokeNotice, State.slotSnapshot, body, SlotBody.lease?, SlotBody.code, SlotBody.grace?,
    State.upgradeNames, unnamed, Owed.code, Owed.rid, Owed.cause]

/-- The slot is REVOKING with its lease kept, and REVOKE_NOTICE is queued, owed or merged (R85, R111 to R113). -/
theorem State.revokeSlot_tells (body : (s.slot i).body = .active l d) (graced : 0 < grace) :
    ∃ o : Option Owed, (s.revokeSlot i grace).slot i =
        { generation := (s.slot i).generation, body := .revoking { l with owed := o } grace }
      ∧ (s.revokeSlot i grace).toldRevoked i (s.slot i).generation l o grace := by
  obtain ⟨t, offers, slot, -, unnamed, -⟩ := State.revokeSlot_offers body graced
  obtain ⟨o, result, offered⟩ := State.offer_leaves (s := t) (i := i) (l := l) (by rw [slot]; rfl) .revokeNotice
  rw [State.slotNotice_revokeNotice (by rw [slot]) unnamed] at offered
  rw [offers]
  rw [slot] at result offered
  exact ⟨o, result, offered⟩

/-- The record of the resource keeps its holders, and has no pending upgrade of the slot. -/
theorem State.record_revokeSlot (body : (s.slot i).body = .active l d) (graced : 0 < grace) :
    ((s.revokeSlot i grace).record l.resource).holders = (s.record l.resource).holders
      ∧ ((s.revokeSlot i grace).record l.resource).upgradePending ≠ some i := by
  obtain ⟨t, offers, -, holders, unnamed, -⟩ := State.revokeSlot_offers body graced
  rw [offers, State.record_offer]
  exact ⟨holders, unnamed⟩

/-- Where the port can take a notice: REVOKE_NOTICE is at the tail of its queue, and the slot owes what it did. -/
theorem State.revokeSlot_taken (body : (s.slot i).body = .active l d) (graced : 0 < grace)
    (hc : s.canTake l.client.port = true) :
    (s.revokeSlot i grace).slot i = { generation := (s.slot i).generation, body := .revoking l grace }
      ∧ (s.revokeSlot i grace).sides = s.sides
      ∧ ((s.revokeSlot i grace).port (.client l.client.port)).queue =
          (s.port (.client l.client.port)).queue ++ [revokeNotice i (s.slot i).generation l grace] := by
  obtain ⟨t, offers, slot, -, unnamed, ports, sides⟩ := State.revokeSlot_offers body graced
  rw [offers, State.offer_taken (by rw [slot]; rfl) ((State.canTake_of_ports ports sides _).trans hc),
    State.slotNotice_revokeNotice (by rw [slot]) unnamed, slot]
  refine ⟨by rw [State.pushMessage_slot, slot], sides, ?_⟩
  rw [State.port_pushMessage, if_pos rfl, State.port, ports]
  rfl

/-- Where it can take none: REVOKE_NOTICE joins the owed list, or merges with the notice owed. -/
theorem State.revokeSlot_owed (body : (s.slot i).body = .active l d) (graced : 0 < grace)
    (hc : s.canTake l.client.port = false) :
    (s.revokeSlot i grace).ports = s.ports
      ∧ (l.owed = none →
        (s.revokeSlot i grace).slot i =
            { generation := (s.slot i).generation, body := .revoking { l with owed := some .revokeNotice } grace }
          ∧ ((s.revokeSlot i grace).side l.client.port).owed = (s.side l.client.port).owed ++ [.slot i])
      ∧ ∀ old : Owed, l.owed = some old →
        (s.revokeSlot i grace).slot i =
            { generation := (s.slot i).generation
              body := .revoking { l with owed := some (old.merge .revokeNotice) } grace }
          ∧ (s.revokeSlot i grace).sides = s.sides := by
  obtain ⟨t, offers, slot, -, -, ports, sides⟩ := State.revokeSlot_offers body graced
  have held : (t.slot i).body.lease? = some l := by rw [slot]; rfl
  have full : t.canTake l.client.port = false := (State.canTake_of_ports ports sides _).trans hc
  rw [offers]
  refine ⟨?_, fun silent => ?_, fun old owing => ?_⟩
  · cases owing : l.owed with
    | none => rw [State.offer_owed held full owing]; exact ports
    | some old => rw [State.offer_merged held full owing]; exact ports
  · rw [State.offer_owed held full silent]
    refine ⟨?_, by rw [State.side_joinOwed, if_pos rfl, State.setOwed_side, State.side, State.side, sides]⟩
    rw [State.joinOwed_slot, State.slot_setOwed, if_pos rfl, slot]
    rfl
  · rw [State.offer_merged held full owing]
    refine ⟨?_, sides⟩
    rw [State.slot_setOwed, if_pos rfl, slot]
    rfl

/-! ### REVOKE (R130) -/

theorem revokeDecision_malformed
    (h : 128 ≤ (byteAt f 4).toNat ∨ 1 < (byteAt f 6).toNat ∨ (byteAt f 6 = 0x01#8 ∧ byteAt f 7 ≠ 0x00#8)) :
    revokeDecision f s = s.refuse .badRequest := by
  rcases h with slot | operand
  · simp only [revokeDecision, slotOf_none slot]
  · cases e : slotOf? (byteAt f 4) <;> simp only [revokeDecision, graceOf_none operand, e]

section
variable {g : Option Nat} (slot : byteAt f 4 = byteOf i.val) (operand : graceOf? (byteAt f 6) (byteAt f 7) = some g)

include slot operand

theorem revokeDecision_stale (h : (s.slot i).generation ≠ byteAt f 5 ∨ (s.slot i).body.live? = none) :
    revokeDecision f s = s.refuse .staleHandle := by
  simp only [revokeDecision, slot, slotOf_byteOf, operand, State.accept_none h]

theorem revokeDecision_revoking (generation : (s.slot i).generation = byteAt f 5)
    (h : (s.slot i).body.isRevoking = true) : revokeDecision f s = s.refuse .revoking := by
  obtain ⟨l, live⟩ : ∃ l, (s.slot i).body.live? = some l := by
    cases e : (s.slot i).body <;> simp_all [SlotBody.isRevoking, SlotBody.live?]
  simp only [revokeDecision, slot, slotOf_byteOf, operand, State.accept, generation, if_true, live, h]

theorem revokeDecision_active (generation : (s.slot i).generation = byteAt f 5) (body : (s.slot i).body = .active l d) :
    revokeDecision f s = (s.revokeOne i l.resource (s.graceFor l.resource g), Reply.bare .ok) := by
  simp only [revokeDecision, slot, slotOf_byteOf, operand, State.accept, generation, if_true, body, SlotBody.live?,
    SlotBody.isRevoking, Bool.false_eq_true, if_false]

end

/-- A revocation with grace 0 ends the lease, and runs the grant rule. -/
theorem State.revokeOne_zero (body : (s.slot i).body = .active l d) (n : ResNo) :
    s.revokeOne i n 0 = (s.endLease .revoked i).grantRule n := by
  simp only [State.revokeOne, State.revokeSlot, body, true_or, if_true]

/-- One with a grace runs the grant rule where it cleared a pending upgrade. -/
theorem State.revokeOne_graced (graced : 0 < grace) (n : ResNo) :
    s.revokeOne i n grace =
      if (s.record n).upgradePending = some i then (s.revokeSlot i grace).grantRule n else s.revokeSlot i grace := by
  simp only [State.revokeOne, graced.ne', false_or, State.upgradeNames, decide_eq_true_eq]

/-- Settles O43: the operands, the handle, and the revocation by its grace; what is owed afterwards follows the room on
the client's port. -/
theorem revokeByGrace : Obligations.RevokeByGrace := by
  refine ⟨fun s f asks malformed => exec_supDecided (d := revokeDecision) rfl asks (revokeDecision_malformed malformed),
    fun s f i g asks slot operand => ?_⟩
  intro refused
  have decided {u : State} {a : Reply} := exec_supDecided (x := .revoke) (d := revokeDecision) (u := u) (a := a) rfl asks
  refine ⟨fun stale => decided (revokeDecision_stale slot operand stale),
    fun generation revoking => decided (revokeDecision_revoking slot operand generation revoking), ?_⟩
  rintro l d grace generation body rfl
  have leaves {u : State} (h : s.revokeOne i l.resource (g.getD (s.entry l.resource).fieldsD.grace) = u) :
      exec .revoke s = .next (u.supAnswer Kind.revoke f (Reply.bare .ok)) :=
    h ▸ decided (revokeDecision_active slot operand generation body)
  refine ⟨fun zero => leaves (by rw [zero, State.revokeOne_zero body]), fun graced => ?_⟩
  obtain ⟨holders, unnamed⟩ := State.record_revokeSlot body graced
  have granted (pending : (s.record l.resource).upgradePending = some i) :=
    leaves ((State.revokeOne_graced graced _).trans (if_pos pending))
  have quiet (other : (s.record l.resource).upgradePending ≠ some i) :=
    leaves ((State.revokeOne_graced graced _).trans (if_neg other))
  by_cases room : s.canTake l.client.port = true
  · obtain ⟨result, sides, queue⟩ := State.revokeSlot_taken body graced room
    exact ⟨_, l.owed, result, ⟨fun _ => ⟨rfl, sides, queue⟩, fun full => by simp [room] at full⟩, holders, unnamed,
      granted, quiet⟩
  · obtain ⟨ports, silent, owing⟩ := State.revokeSlot_owed body graced (by simpa using room)
    cases owed : l.owed with
    | none =>
      obtain ⟨result, list⟩ := silent owed
      exact ⟨_, _, result, ⟨fun taken => absurd taken room, fun _ => ⟨ports, fun _ => ⟨rfl, list⟩, by simp⟩⟩, holders,
        unnamed, granted, quiet⟩
    | some old =>
      obtain ⟨result, sides⟩ := owing old owed
      refine ⟨_, _, result, ⟨fun taken => absurd taken room, fun _ => ⟨ports, by simp, fun x e => ?_⟩⟩, holders,
        unnamed, granted, quiet⟩
      obtain rfl := Option.some.inj e
      exact ⟨rfl, sides⟩

/-! ### Revocations in turn -/

/-- The slot is in ACTIVE. -/
def SlotBody.isActive : SlotBody → Bool
  | .active _ _ => true
  | .free | .reserved _ | .revoking _ _ | .ended _ _ _ => false

theorem SlotBody.isActive_iff {b : SlotBody} : b.isActive = true ↔ ∃ l d, b = .active l d := by
  cases b <;> simp [SlotBody.isActive]

/-- A slot that is not in ACTIVE is not revoked. -/
theorem State.revokeSlot_of_not_active (h : (s.slot i).body.isActive = false) (g : Nat) : s.revokeSlot i g = s := by
  cases e : (s.slot i).body <;> simp_all [State.revokeSlot, SlotBody.isActive]

theorem onlyAt_revokeSlot (i : SlotNo) (g : Nat) : OnlyAt i s (s.revokeSlot i g) := by
  simp only [State.revokeSlot]
  split
  · split
    · exact onlyAt_endLease _ i
    · refine OnlyAt.trans ?_ ((onlyAt_setSlot i _).trans (onlyAt_offer i _))
      split
      · exact onlyAt_setRecord _ _
      · exact .refl
  all_goals exact .refl

/-- A revoked slot is not in ACTIVE. -/
theorem State.not_active_revokeSlot (s : State) (i : SlotNo) (g : Nat) :
    ((s.revokeSlot i g).slot i).body.isActive = false := by
  cases e : (s.slot i).body.isActive with
  | false => rwa [State.revokeSlot_of_not_active e]
  | true =>
    obtain ⟨l, d, body⟩ := SlotBody.isActive_iff.1 e
    by_cases zero : g = 0
    · have ended : s.revokeSlot i g = s.endLease .revoked i := by simp only [State.revokeSlot, body, if_pos zero]
      have gone := s.live_endLease .revoked i
      rw [ended]
      cases b : ((s.endLease .revoked i).slot i).body <;> simp_all [SlotBody.live?, SlotBody.isActive]
    · obtain ⟨o, result, -⟩ := State.revokeSlot_tells body (Nat.pos_of_ne_zero zero)
      rw [result]
      rfl

theorem State.revokeAll_cons (i : SlotNo) (ls : List SlotNo) (g : Nat) :
    s.revokeAll (i :: ls) g = (s.revokeSlot i g).revokeAll ls g := rfl

/-- The turns leave a slot that is not in ACTIVE, whether it is named or not. -/
theorem leaves_revokeAll {ls : List SlotNo} {g : Nat} (h : (s.slot i).body.isActive = false) :
    Leaves i s (s.revokeAll ls g) := by
  induction ls generalizing s with
  | nil => exact .refl
  | cons k ls ih =>
    have turn : Leaves i s (s.revokeSlot k g) := by
      by_cases e : i = k
      · subst e
        rw [State.revokeSlot_of_not_active h]
        exact .refl
      · exact (onlyAt_revokeSlot k g).leaves e
    exact turn.trans (ih (by rwa [turn.slot]))

/-- Each named slot has its turn: what comes before it and after it leaves the slot. -/
theorem State.revokeAll_turn {ls : List SlotNo} (h : i ∈ ls) (s : State) (g : Nat) :
    ∃ u, Leaves i s u ∧ Leaves i (u.revokeSlot i g) (s.revokeAll ls g) := by
  induction ls generalizing s with
  | nil => simp at h
  | cons k ls ih =>
    by_cases e : i = k
    · subst e
      exact ⟨s, .refl, leaves_revokeAll (s.not_active_revokeSlot i g)⟩
    · obtain ⟨u, before, after⟩ := ih ((List.mem_cons.1 h).resolve_left e) (s.revokeSlot k g)
      exact ⟨u, ((onlyAt_revokeSlot k g).leaves e).trans before, after⟩

/-- No named slot is in ACTIVE any more. -/
theorem State.not_active_revokeAll {ls : List SlotNo} (h : i ∈ ls) (s : State) (g : Nat) :
    ((s.revokeAll ls g).slot i).body.isActive = false := by
  obtain ⟨u, -, after⟩ := State.revokeAll_turn h s g
  rw [after.slot]
  exact u.not_active_revokeSlot i g

/-- A named lease that was in ACTIVE is REVOKING, and its client has been told. -/
theorem State.revokeAll_tells {ls : List SlotNo} (h : i ∈ ls) (body : (s.slot i).body = .active l d)
    (graced : 0 < grace) :
    ∃ o : Option Owed, ((s.revokeAll ls grace).slot i).body = .revoking { l with owed := o } grace
      ∧ (s.revokeAll ls grace).toldRevoked i (s.slot i).generation l o grace := by
  obtain ⟨u, before, after⟩ := State.revokeAll_turn h s grace
  rw [← before.slot] at body ⊢
  obtain ⟨o, result, told⟩ := State.revokeSlot_tells body graced
  exact ⟨o, by rw [after.slot, result], after.offered told⟩

/-! ### REVOKE_RESOURCE (R131) -/

theorem revokeResourceDecision_operand {g : Option Nat} (operand : graceOf? (byteAt f 5) (byteAt f 6) = some g) :
    revokeResourceDecision f s = (s.revokeHolders f.resource (s.graceFor f.resource g),
      { status := .ok, extra := [byteOf (s.activeHolders f.resource).length] }) := by
  simp only [revokeResourceDecision, operand]

/-- The grant rule runs where a lease or a pending upgrade was ended. -/
theorem State.revokeHolders_iff (n : ResNo) (grace : Nat) :
    ((grace = 0 ∧ s.activeHolders n ≠ []) ∨ (∃ i ∈ s.activeHolders n, (s.record n).upgradePending = some i) →
      s.revokeHolders n grace = (s.revokeAll (s.activeHolders n) grace).grantRule n)
    ∧ (¬((grace = 0 ∧ s.activeHolders n ≠ []) ∨ ∃ i ∈ s.activeHolders n, (s.record n).upgradePending = some i) →
      s.revokeHolders n grace = s.revokeAll (s.activeHolders n) grace) := by
  simp only [State.revokeHolders, List.any_eq_true, State.upgradeNames, decide_eq_true_eq]
  exact ⟨fun h => if_pos h, fun h => if_neg h⟩

/-- Settles O44: the operand, the answer, and each holder's turn. -/
theorem revokeResourceReachesAll : Obligations.RevokeResourceReachesAll := by
  refine ⟨fun s f asks malformed => exec_supDecided (d := revokeResourceDecision) rfl asks ?_,
    fun s f g asks operand => ?_⟩
  · simp only [revokeResourceDecision, graceOf_none malformed]
    rfl
  intro n ls grace s1 ended answer
  have decided := exec_supDecided (x := .revokeResource) rfl asks (revokeResourceDecision_operand operand)
  have leaves {u : State} (h : s.revokeHolders n grace = u) :
      exec .revokeResource s = .next (u.supAnswer Kind.revokeResource f answer) := h ▸ decided
  obtain ⟨granted, quiet⟩ := State.revokeHolders_iff (s := s) n grace
  refine ⟨fun h => leaves (granted h), fun h => leaves (quiet h), fun none => ?_, fun i hi =>
    ⟨fun l d active => ?_, fun l d body graced => State.revokeAll_tells hi body graced⟩⟩
  · simp only [s1, none]
    rfl
  · have gone := State.not_active_revokeAll hi s grace
    rw [active] at gone
    simp [SlotBody.isActive] at gone

end Sys2Proof.Machine
end

section
/-! PROOFS. What the client requests and the supervisor's requests on leases leave: the fields outside the tables, the
detach policies, and what the ports have received (R85, R116, R117, R132). -/

namespace Sys2Proof.Machine

/-- The detach policies of the client ports (R100). -/
def State.policies (s : State) : CPort → Policy := fun p => (s.side p).policy

theorem policies_foldl {α : Type} {f : State → α → State} (hf : ∀ t a, (f t a).policies = t.policies) (l : List α)
    (s : State) : (l.foldl f s).policies = s.policies := by
  induction l generalizing s with
  | nil => rfl
  | cons a l ih => rw [List.foldl_cons, ih, hf]

section
variable (s : State)

/-! ### The detach policies: updates -/

@[simp] theorem policies_setPort (p : PortId) (u : PortUnit) : (s.setPort p u).policies = s.policies := rfl
@[simp] theorem policies_setEntry (n : ResNo) (e : Entry) : (s.setEntry n e).policies = s.policies := rfl
@[simp] theorem policies_setRecord (n : ResNo) (r : Record) : (s.setRecord n r).policies = s.policies := rfl
@[simp] theorem policies_setWait (j : WaitNo) (w : WaitEntry) : (s.setWait j w).policies = s.policies := rfl
@[simp] theorem policies_setActivations (l : List Activation) : (s.setActivations l).policies = s.policies := rfl
@[simp] theorem policies_setBody (i : SlotNo) (b : SlotBody) : (s.setBody i b).policies = s.policies := rfl
@[simp] theorem policies_freeSlot (i : SlotNo) : (s.freeSlot i).policies = s.policies := rfl
@[simp] theorem policies_pushMessage (p : PortId) (m : Message) : (s.pushMessage p m).policies = s.policies := rfl
@[simp] theorem policies_setOwed (i : SlotNo) (o : Option Owed) : (s.setOwed i o).policies = s.policies := rfl

/-- A change of an owed list. -/
@[simp] theorem policies_setSide_owed (p : CPort) (l : List Ref) :
    (s.setSide p { s.side p with owed := l }).policies = s.policies := by
  funext q
  simp only [State.policies, State.side_setSide]
  split
  · rename_i e
    rw [e]
  · rfl

@[simp] theorem policies_joinOwed (p : CPort) (r : Ref) : (s.joinOwed p r).policies = s.policies :=
  policies_setSide_owed s p _

@[simp] theorem policies_leaveOwed (p : CPort) (r : Ref) : (s.leaveOwed p r).policies = s.policies :=
  policies_setSide_owed s p _

/-! ### The detach policies: notices -/

@[simp] theorem policies_offer (i : SlotNo) (k : Owed) : (s.offer i k).policies = s.policies := by
  simp only [State.offer]
  split
  · rfl
  · split
    · rfl
    · split <;> simp

@[simp] theorem policies_dropOwed (r : Ref) : (s.dropOwed r).policies = s.policies := by
  cases r <;> simp only [State.dropOwed] <;> split <;> rfl

@[simp] theorem policies_withdraw (p : CPort) (r : Ref) : (s.withdraw p r).policies = s.policies := by
  simp [State.withdraw]

@[simp] theorem policies_withdrawAll (p : CPort) (refs : List Ref) : (s.withdrawAll p refs).policies = s.policies :=
  policies_foldl (fun t r => policies_withdraw t p r) refs s

@[simp] theorem policies_deliverRef (p : CPort) (r : Ref) : (s.deliverRef p r).policies = s.policies := by
  cases r <;> simp only [State.deliverRef]
  · split
    · split <;> simp
    · rfl
  · split <;> simp

@[simp] theorem policies_deliverOwed (fuel : Nat) (p : CPort) : (State.deliverOwed fuel p s).policies = s.policies := by
  induction fuel generalizing s with
  | zero => rfl
  | succ n ih =>
    simp only [State.deliverOwed]
    split
    · rfl
    · split
      · simp [ih]
      · rfl

@[simp] theorem policies_deliverAllOwed (p : CPort) : (s.deliverAllOwed p).policies = s.policies :=
  policies_deliverOwed s _ p

/-! ### The detach policies: waits and upgrades -/

@[simp] theorem policies_leaveQueue (j : WaitNo) (n : ResNo) (i : SlotNo) :
    (s.leaveQueue j n i).policies = s.policies := rfl

@[simp] theorem policies_endWait (cause : WaitCause) (j : WaitNo) : (s.endWait cause j).policies = s.policies := by
  simp only [State.endWait]
  split
  · split <;> simp
  all_goals rfl

@[simp] theorem policies_endWaitPurged (j : WaitNo) : (s.endWaitPurged j).policies = s.policies := by
  simp only [State.endWaitPurged]
  split
  · split <;> simp
  all_goals rfl

@[simp] theorem policies_endWaitQuiet (j : WaitNo) : (s.endWaitQuiet j).policies = s.policies := by
  simp only [State.endWaitQuiet]
  split <;> rfl

@[simp] theorem policies_endWaitsQuiet (js : List WaitNo) : (s.endWaitsQuiet js).policies = s.policies :=
  policies_foldl policies_endWaitQuiet js s

@[simp] theorem policies_exhaust (n : ResNo) : (s.exhaust n).policies = s.policies := by
  simp only [State.exhaust]
  split
  · exact policies_foldl (fun t j => policies_endWait t .fenceSpent j) _ _
  · rfl

@[simp] theorem policies_clearUpgrade (n : ResNo) : (s.clearUpgrade n).policies = s.policies := by
  simp only [State.clearUpgrade]
  split <;> rfl

@[simp] theorem policies_clearUpgrades (ns : List ResNo) : (s.clearUpgrades ns).policies = s.policies :=
  policies_foldl policies_clearUpgrade ns s

@[simp] theorem policies_upgradeSlot (i : SlotNo) (n : ResNo) : (s.upgradeSlot i n).policies = s.policies := rfl

@[simp] theorem policies_endUpgrade (n : ResNo) (cause : UpgradeEndCause) :
    (s.endUpgrade n cause).policies = s.policies := by
  simp only [State.endUpgrade]
  split <;> simp

/-! ### The detach policies: grants and the grant rule -/

@[simp] theorem policies_grantSlot (i : SlotNo) (n : ResNo) (c : Client) (m : Mode) (term : Nat) :
    (s.grantSlot i n c m term).policies = s.policies := rfl

@[simp] theorem policies_serveUpgrade (n : ResNo) : (s.serveUpgrade n).policies = s.policies := by
  simp only [State.serveUpgrade]
  split
  · rfl
  · split <;> simp

@[simp] theorem policies_grantWait (n : ResNo) (j : WaitNo) (w : Wait) (i : SlotNo) :
    (s.grantWait n j w i).policies = s.policies := by
  simp [State.grantWait]

@[simp] theorem policies_grantHeads (fuel : Nat) (n : ResNo) : (State.grantHeads fuel n s).policies = s.policies := by
  induction fuel generalizing s with
  | zero => rfl
  | succ k ih =>
    simp only [State.grantHeads]
    split
    · rfl
    · rename_i granted
      obtain ⟨j, rest, w, r, i, -, -, -, rfl⟩ := grantHead_some granted
      rw [ih, policies_grantWait]

@[simp] theorem policies_serve (n : ResNo) : (s.serve n).policies = s.policies := by
  simp [State.serve]

@[simp] theorem policies_recheck (n : ResNo) (image : Entry) : (s.recheck n image).policies = s.policies := by
  refine policies_foldl (fun t j => ?_) _ _
  split <;> simp

@[simp] theorem policies_putInForce (n : ResNo) (image : Entry) : (s.putInForce n image).policies = s.policies := rfl

@[simp] theorem policies_offerActivated : s.offerActivated.policies = s.policies := by
  simp only [State.offerActivated]
  split
  · split <;> rfl
  · rfl

@[simp] theorem policies_applyPending (n : ResNo) (image : Entry) : (s.applyPending n image).policies = s.policies := by
  simp [State.applyPending]

@[simp] theorem policies_applyNow (n : ResNo) (image : Entry) : (s.applyNow n image).policies = s.policies := by
  simp [State.applyNow]

/-- The grant rule changes no detach policy (R59). -/
@[simp] theorem policies_grantRule (n : ResNo) : (s.grantRule n).policies = s.policies := by
  simp only [State.grantRule]
  split
  · split
    · split <;> simp
    · rfl
  · simp

@[simp] theorem policies_grantRules (ns : List ResNo) : (s.grantRules ns).policies = s.policies :=
  policies_foldl policies_grantRule ns s

/-! ### The detach policies: ends of leases and revocation -/

@[simp] theorem policies_leaveHolders (i : SlotNo) (n : ResNo) : (s.leaveHolders i n).policies = s.policies := rfl

@[simp] theorem policies_endLease (cause : EndCause) (i : SlotNo) : (s.endLease cause i).policies = s.policies := by
  simp only [State.endLease]
  split
  · rfl
  · split
    · rfl
    · split <;> simp

@[simp] theorem policies_endLeasePurged (i : SlotNo) : (s.endLeasePurged i).policies = s.policies := by
  simp only [State.endLeasePurged]
  split
  · rfl
  · split <;> simp

@[simp] theorem policies_endLeaseQuiet (i : SlotNo) : (s.endLeaseQuiet i).policies = s.policies := by
  simp only [State.endLeaseQuiet]
  split <;> simp

@[simp] theorem policies_endLeasesQuiet (ls : List SlotNo) : (s.endLeasesQuiet ls).policies = s.policies :=
  policies_foldl policies_endLeaseQuiet ls s

@[simp] theorem policies_revokeSlot (i : SlotNo) (g : Nat) : (s.revokeSlot i g).policies = s.policies := by
  simp only [State.revokeSlot]
  split
  · split
    · simp
    · split <;> simp
  all_goals rfl

@[simp] theorem policies_revokeAll (ls : List SlotNo) (g : Nat) : (s.revokeAll ls g).policies = s.policies :=
  policies_foldl (fun t i => policies_revokeSlot t i g) ls s

end

/-! ### What stays -/

variable {s t : State}

/-- The store and the array, the timebase, the epoch, the part state, the active page, the rotation and the detach
policies are as they were. -/
structure Framed (s t : State) : Prop where
  store : t.store = s.store
  array : t.array = s.array
  prescale : t.prescale = s.prescale
  run : t.run = s.run
  divider : t.divider = s.divider
  epoch : t.epoch = s.epoch
  part : t.part = s.part
  active : t.active = s.active
  rotation : t.rotation = s.rotation
  policies : t.policies = s.policies

theorem Framed.of_steady (h : t.steady = s.steady) (p : t.policies = s.policies) : Framed s t :=
  ⟨congrArg Steady.store h, congrArg Steady.array h, congrArg Steady.prescale h, congrArg Steady.run h,
    congrArg Steady.divider h, congrArg Steady.epoch h, congrArg Steady.part h, congrArg Steady.active h,
    congrArg Steady.rotation h, p⟩

theorem Framed.trans {u : State} (h : Framed s t) (k : Framed t u) : Framed s u :=
  ⟨k.store.trans h.store, k.array.trans h.array, k.prescale.trans h.prescale, k.run.trans h.run,
    k.divider.trans h.divider, k.epoch.trans h.epoch, k.part.trans h.part, k.active.trans h.active,
    k.rotation.trans h.rotation, k.policies.trans h.policies⟩

/-- What a port has received: the frames that wait in its FIFO, and its flags. -/
structure Inbound where
  fifo : List Frame
  overrun : Bool
  frameError : Bool
  restarted : Bool

def PortUnit.inbound (u : PortUnit) : Inbound :=
  { fifo := u.fifo, overrun := u.overrun, frameError := u.frameError, restarted := u.restarted }

/-- What every port has received is there still, too. -/
structure Untouched (s t : State) : Prop extends Framed s t where
  inbound : ∀ p, (t.port p).inbound = (s.port p).inbound

theorem Untouched.trans {u : State} (h : Untouched s t) (k : Untouched t u) : Untouched s u :=
  ⟨h.toFramed.trans k.toFramed, fun p => (k.inbound p).trans (h.inbound p)⟩

/-- An operation that lets the outbound queues grow alone. -/
theorem Untouched.of_grow (h : t.steady = s.steady) (p : t.policies = s.policies) (g : PortsGrow s t) :
    Untouched s t := by
  refine ⟨.of_steady h p, fun q => ?_⟩
  obtain ⟨ms, -, grown, -⟩ := g q
  rw [grown]
  rfl

theorem Untouched.refl : Untouched s s := .of_grow rfl rfl .rfl

theorem Untouched.of_eq (h : t = s) : Untouched s t := h ▸ .refl

/-- A port unit changed in its outbound part. -/
theorem untouched_setPort {p : PortId} {u : PortUnit} (h : u.inbound = (s.port p).inbound) :
    Untouched s (s.setPort p u) := by
  refine ⟨.of_steady rfl rfl, fun q => ?_⟩
  rw [State.port_setPort]
  split
  · rename_i e
    rw [h, e]
  · rfl

/-- An answer reaches the outbound queue of its port alone (R109). -/
theorem untouched_answer (k : Kind) (r : Request) (a : Reply) : Untouched s (s.answer k r a) where
  toFramed := ⟨rfl, rfl, rfl, rfl, rfl, rfl, rfl, rfl, rfl, rfl⟩
  inbound := (untouched_setPort (s := s) (p := r.port)
    (u := { s.port r.port with queue := (s.port r.port).queue ++ [responseTo k r a], reserved := false }) rfl).inbound

theorem untouched_grantRule (n : ResNo) : Untouched s (s.grantRule n) :=
  .of_grow (by simp) (by simp) (ports_grantRule s n)

/-! ### Requests -/

theorem framed_clientRequest {k : Kind} {d : Client → Frame → State → Decision} (h : ∀ c f, Framed s (d c f s).1) :
    Framed s (s.clientRequest k d) := by
  rcases State.clientRequest_cases (s := s) (k := k) d with e | ⟨p, f, a, -, -, e⟩ | ⟨p, f, t, -, -, -, e⟩ <;> rw [e]
  · exact Untouched.refl.toFramed
  · exact (untouched_answer k _ a).toFramed
  · exact (h _ f).trans (untouched_answer k _ _).toFramed

theorem untouched_clientRequest {k : Kind} {d : Client → Frame → State → Decision}
    (h : ∀ c f, Untouched s (d c f s).1) : Untouched s (s.clientRequest k d) := by
  rcases State.clientRequest_cases (s := s) (k := k) d with e | ⟨p, f, a, -, -, e⟩ | ⟨p, f, t, -, -, -, e⟩ <;> rw [e]
  · exact .refl
  · exact untouched_answer k _ a
  · exact (h _ f).trans (untouched_answer k _ _)

theorem untouched_supRequest {k : Kind} {d : Frame → State → Decision} (h : ∀ f, Untouched s (d f s).1) :
    Untouched s (s.supRequest k d) := by
  rcases State.supRequest_cases (s := s) (k := k) d with e | ⟨f, a, -, -, e⟩ | ⟨f, -, -, e⟩ <;> rw [e]
  · exact .refl
  · exact untouched_answer k _ a
  · exact (h f).trans (untouched_answer k _ _)

theorem untouched_withHandle {c : Client} {f : Frame} {before : Option Status} {d : SlotNo → Lease → Decision}
    (h : ∀ i l, Untouched s (d i l).1) : Untouched s (s.withHandle c f before d).1 := by
  simp only [State.withHandle]
  split
  · exact .refl
  · split
    · exact .refl
    · split
      · exact .refl
      · split
        · exact h _ _
        · exact .refl

/-! ### ACQUIRE (R41, R42) -/

theorem untouched_acquireGrant (c : Client) (n : ResNo) (m : Mode) (term : Nat) (i : SlotNo) :
    Untouched s (s.acquireGrant c n m term i).1 :=
  .of_grow (by simp [State.acquireGrant]) (by simp [State.acquireGrant])
    (PortsGrow.trans (t := s.grantSlot i n c m term) (.of_ports rfl) (ports_exhaust _ n))

theorem untouched_acquire (c : Client) (f : Frame) : Untouched s (acquireDecision c f s).1 := by
  simp only [acquireDecision]
  split
  · exact .refl
  · split
    · exact .refl
    · split
      · exact .refl
      · simp only [State.acquirePlace]
        split
        · exact .refl
        · split
          · exact untouched_acquireGrant ..
          · split
            · exact .refl
            · split
              · exact .refl
              · exact .of_grow rfl rfl (.of_ports rfl)

/-! ### The other requests of the clients -/

theorem untouched_cancelWait (c : Client) (f : Frame) : Untouched s (cancelWaitDecision c f s).1 := by
  simp only [cancelWaitDecision]
  split
  · exact Untouched.trans (.of_grow (by simp) (by simp) (ports_endWaitQuiet s _)) (untouched_grantRule _)
  · exact .refl

theorem untouched_release (c : Client) (f : Frame) : Untouched s (releaseDecision c f s).1 :=
  untouched_withHandle fun i _ =>
    Untouched.trans (.of_grow (by simp) (by simp) (ports_endLeaseQuiet s i)) (untouched_grantRule _)

theorem untouched_renewSlot (i : SlotNo) (l : Lease) (term : Nat) : Untouched s (s.renewSlot i l term) := by
  have withdrawn : Untouched s (if l.owed = some .expiryWarning then s.withdraw l.client.port (.slot i) else s) := by
    split
    · exact .of_grow (by simp) (by simp) (ports_withdraw s _ _)
    · exact .refl
  exact withdrawn.trans (.of_grow rfl rfl (.of_ports rfl))

theorem untouched_renew (c : Client) (f : Frame) : Untouched s (renewDecision c f s).1 := by
  refine untouched_withHandle fun i l => ?_
  split
  · exact .refl
  · exact untouched_renewSlot i l _

theorem untouched_upgrade (c : Client) (f : Frame) : Untouched s (upgradeDecision c f s).1 := by
  refine untouched_withHandle fun i l => ?_
  split
  · exact .refl
  · dsimp only
    split
    · exact .of_grow (by simp) (by simp)
        (PortsGrow.trans (t := s.upgradeSlot i l.resource) (.of_ports rfl) (ports_exhaust _ _))
    · split
      · exact .refl
      · exact .of_grow rfl rfl (.of_ports rfl)

theorem untouched_cancelUpgrade (c : Client) (f : Frame) : Untouched s (cancelUpgradeDecision c f s).1 := by
  refine untouched_withHandle fun i l => ?_
  split
  · exact Untouched.trans (.of_grow (by simp) (by simp) (ports_clearUpgrade s _)) (untouched_grantRule _)
  · exact .refl

theorem untouched_downgrade (c : Client) (f : Frame) : Untouched s (downgradeDecision c f s).1 := by
  refine untouched_withHandle fun i l => ?_
  split
  · exact .refl
  · exact Untouched.trans (t := s.downgradeSlot i) (.of_grow rfl rfl (.of_ports rfl)) (untouched_grantRule _)

/-- DETACH takes notices out of an outbound queue (R104, R116). -/
theorem untouched_detach (c : Client) : Untouched s (s.detach c).1 := by
  refine Untouched.trans (t := s.setPort (.client c.port) ((s.port (.client c.port)).dropNotices c.tag))
    (untouched_setPort rfl) ?_
  simp only [State.detach]
  exact .of_grow (by simp) (by simp) <| (ports_withdrawAll _ _ _).trans <| (ports_endWaitsQuiet _ _).trans <|
    (ports_clearUpgrades _ _).trans <| (ports_endLeasesQuiet _ _).trans <| (ports_grantRules _ _).trans
      (ports_deliverAllOwed _ _)

/-- RESET_PORT empties what its port has received, and leaves the rest (R117). -/
theorem framed_resetPort (p : CPort) : Framed s (s.resetPort p).1 :=
  .of_steady (by simp [State.resetPort]) (by simp [State.resetPort])

/-! ### The supervisor's requests on leases -/

theorem untouched_readLease (f : Frame) : Untouched s (readLeaseDecision f s).1 := by
  simp only [readLeaseDecision]
  split <;> exact .refl

theorem untouched_readQueue (f : Frame) : Untouched s (readQueueDecision f s).1 := by
  simp only [readQueueDecision]
  split <;> exact .refl

theorem untouched_readWait (f : Frame) : Untouched s (readWaitDecision f s).1 := by
  simp only [readWaitDecision]
  split <;> exact .refl

theorem untouched_revoke (f : Frame) : Untouched s (revokeDecision f s).1 := by
  have revoked (i : SlotNo) (g : Nat) : Untouched s (s.revokeSlot i g) :=
    .of_grow (by simp) (by simp) (ports_revokeSlot s i g)
  simp only [revokeDecision, State.revokeOne]
  split
  · split
    · exact .refl
    · split
      · exact .refl
      · dsimp only
        split
        · exact (revoked _ _).trans (untouched_grantRule _)
        · exact revoked _ _
  · exact .refl

theorem untouched_revokeAll (ls : List SlotNo) (g : Nat) : Untouched s (s.revokeAll ls g) :=
  .of_grow (by simp) (by simp) (ports_revokeAll s ls g)

theorem untouched_revokeResource (f : Frame) : Untouched s (revokeResourceDecision f s).1 := by
  simp only [revokeResourceDecision, State.revokeHolders]
  split
  · exact .refl
  · dsimp only
    split
    · exact (untouched_revokeAll _ _).trans (untouched_grantRule _)
    · exact untouched_revokeAll _ _

theorem untouched_purge (c : Client) : Untouched s (s.purge c).1 := by
  simp only [State.purge]
  refine .of_grow ?_ ?_ <| (ports_withdrawAll _ _ _).trans <| (PortsGrow.foldl ports_endWaitPurged _ _).trans <|
    (PortsGrow.foldl ports_endLeasePurged _ _).trans (ports_grantRules _ _)
  · rw [steady_grantRules, steady_foldl steady_endLeasePurged, steady_foldl steady_endWaitPurged, steady_withdrawAll]
  · rw [policies_grantRules, policies_foldl policies_endLeasePurged, policies_foldl policies_endWaitPurged,
      policies_withdrawAll]

theorem untouched_purgeClient (f : Frame) : Untouched s (purgeClientDecision f s).1 := by
  simp only [purgeClientDecision]
  split
  · exact untouched_purge _
  · exact .refl

theorem untouched_applyNow (n : ResNo) (image : Entry) : Untouched s (s.applyNow n image) :=
  .of_grow (by simp) (by simp) (ports_applyNow s n image)

theorem untouched_drain (n : ResNo) (a : Activation) : Untouched s (s.drain n a).1 := by
  have revoked : Untouched s (if a.revoke then s.revokeAll (s.activeHolders n) (s.entry n).fieldsD.grace else s) := by
    split
    · exact untouched_revokeAll _ _
    · exact .refl
  simp only [State.drain]
  generalize (if a.revoke then s.revokeAll (s.activeHolders n) (s.entry n).fieldsD.grace else s) = u at revoked ⊢
  split
  · exact revoked.trans (untouched_applyNow n _)
  · exact revoked

theorem untouched_activateImage (n : ResNo) (a : Activation) : Untouched s (s.activate n a).1 := by
  have listed : Untouched s (s.setActivations (replacePending n a s.activations)) := .of_grow rfl rfl (.of_ports rfl)
  have recorded : Untouched s (s.recordActivation n a) := .of_grow rfl rfl (.of_ports rfl)
  simp only [State.activate]
  split
  · split
    · exact listed.trans (untouched_drain n a)
    · exact listed
  · split
    · exact .of_grow rfl rfl (.of_ports rfl)
    · split
      · exact .refl
      · exact (recorded.trans (.of_grow (by simp) (by simp) (ports_endUpgrade _ _ _))).trans (untouched_drain n a)

theorem untouched_activate (f : Frame) : Untouched s (activateDecision f s).1 := by
  simp only [activateDecision]
  split
  · exact .refl
  · split
    · exact .refl
    · exact untouched_activateImage _ _

theorem untouched_cancelActivation (f : Frame) : Untouched s (cancelActivationDecision f s).1 := by
  simp only [cancelActivationDecision]
  split
  · exact Untouched.trans (t := s.cancelActivation f.resource) (.of_grow rfl rfl (.of_ports rfl))
      (untouched_grantRule _)
  · exact .refl

end Sys2Proof.Machine
end

section
/-! PROOFS. The part state, the timebase and the array: which commands change them, and that the timebase stays in its
ranges (R75, R76, R77, R135). -/

namespace Sys2Proof.Machine

variable {s t : State}

/-! ### The ground of a state -/

/-- What the law of the timebase and the bytes of the array rest on. -/
structure Ground where
  part : PartState
  prescale : Nat
  divider : Nat
  array : List Host.Cell

def State.ground (s : State) : Ground :=
  { part := s.part, prescale := s.prescale, divider := s.divider, array := s.array }

theorem ground_of_steady (h : t.steady = s.steady) : t.ground = s.ground :=
  congrArg (fun x : Steady => Ground.mk x.part x.prescale x.divider x.array) h

theorem Framed.ground (h : Framed s t) : t.ground = s.ground := by
  simp only [State.ground, h.part, h.prescale, h.divider, h.array]

/-- The commands that may change the ground: supply, RESET#, start-up and RESTART, SET_TIMEBASE and TICK, and the
completions of operations that write. -/
def changesGround : Instr → Bool
  | .powerOn | .resetAssert _ | .resetRelease | .powerLoss _ | .startUpComplete _ | .restart _ => true
  | .setTimebase | .tick _ => true
  | .programEntryComplete _ | .erasePageComplete _ | .eraseDirectoryComplete _ | .writeSettingsComplete _
  | .initHeaderComplete _ => true
  | _ => false

/-- Where a command has a next state, the ground is as it was. -/
def GroundTo (s : State) (o : Host.Outcome State Fault Refusal) : Prop := ∀ t : State, o = .next t → t.ground = s.ground

theorem groundTo_next (h : t.ground = s.ground) : GroundTo s (.next t) := by
  rintro u e
  obtain rfl := Host.Outcome.next.inj e
  exact h

theorem groundTo_self : GroundTo s (.next s) := groundTo_next rfl

/-- A row that acts only where its condition holds (log 12). -/
theorem groundTo_ite {c : Prop} [Decidable c] (h : t.ground = s.ground) :
    GroundTo s (.next (if c then t else s)) := by
  split
  · exact groundTo_next h
  · exact groundTo_self

theorem Untouched.groundTo (h : Untouched s t) : GroundTo s (.next t) := groundTo_next h.ground

/-! ### Notices of port S, and completions (R122, R123, R141) -/

theorem ground_raiseStoreNotice (s : State) (m : Message) : (s.raiseStoreNotice m).ground = s.ground := by
  simp only [State.raiseStoreNotice]
  split <;> rfl

theorem ground_skipLaunched (s : State) : s.skipLaunched.ground = s.ground := by
  simp only [State.skipLaunched]
  split
  · exact ground_raiseStoreNotice _ _
  all_goals rfl

theorem ground_finishOp (s : State) (op : StoreOp) (fault : Option StoreFault) (result : List Byte) :
    (s.finishOp op fault result).ground = s.ground := by
  simp only [State.finishOp]
  split
  · exact (ground_skipLaunched _).trans (ground_raiseStoreNotice _ _)
  · exact ground_raiseStoreNotice _ _

/-- A completion changes the array alone of the ground. -/
theorem ground_complete (s : State) (op : StoreOp) (r : OpResult) :
    (s.complete op r).ground = { s.ground with array := r.array } := ground_finishOp _ op _ _

theorem ground_deliverHeldOne (h : s.deliverHeldOne = some t) : t.ground = s.ground := by
  simp only [State.deliverHeldOne] at h
  split at h
  · split at h
    · obtain rfl := Option.some.inj h
      rfl
    · obtain ⟨r, -, rfl⟩ := Option.map_eq_some_iff.1 h
      rfl
  · simp at h

theorem ground_deliverHeld (fuel : Nat) (s : State) : (State.deliverHeld fuel s).ground = s.ground := by
  induction fuel generalizing s with
  | zero => rfl
  | succ n ih =>
    simp only [State.deliverHeld]
    split
    · rfl
    · rename_i delivered
      rw [ih, ground_deliverHeldOne delivered]

theorem ground_deliverTo (s : State) (p : PortId) : (s.deliverTo p).ground = s.ground := by
  cases p with
  | client p => exact ground_of_steady (steady_deliverAllOwed s p)
  | sup => exact ground_deliverHeld _ s

/-! ### Transactions (R101 to R105) -/

theorem ground_beginTransfer (s : State) (p : PortId) (k : TransKind) : (s.beginTransfer p k).ground = s.ground := by
  simp only [State.beginTransfer]
  split <;> rfl

theorem ground_reportTransfer (s : State) (p : PortId) (k : TransKind) : (s.reportTransfer p k).ground = s.ground := by
  simp only [State.reportTransfer]
  split <;> rfl

theorem ground_fixTransfer (s : State) (p : PortId) (k : TransKind) : (s.fixTransfer p k).ground = s.ground := by
  simp only [State.fixTransfer]
  split <;> rfl

section
variable {ending : State → State} (he : ∀ u, (ending u).ground = u.ground)

include he

theorem ground_endTransfer (s : State) (p : PortId) (k : TransKind) (bits : Nat) :
    (s.endTransfer p k bits ending).ground = s.ground := by
  simp only [State.endTransfer]
  split
  · split
    · rw [he]
      split
      · exact ground_fixTransfer s p k
      · exact ground_reportTransfer s p k
    · rfl
  · rfl

theorem ground_transact (s : State) (p : PortId) (k : TransKind) (e : Edge) (bits : Nat) :
    (s.transact p k e bits ending).ground = s.ground := by
  cases e with
  | begins => exact ground_beginTransfer s p k
  | reports => exact ground_reportTransfer s p k
  | fixes => exact ground_fixTransfer s p k
  | ends => exact ground_endTransfer he s p k bits
  | whole =>
    simp only [State.transact]
    split
    · exact (ground_endTransfer he _ p k bits).trans (ground_beginTransfer s p k)
    · rfl

end

theorem ground_finishWrite (p : PortId) (sent : List Byte) (s : State) : (s.finishWrite p sent).ground = s.ground := by
  simp only [State.finishWrite]
  split <;> rfl

theorem ground_finishRead (p : PortId) (bits : Nat) (s : State) : (s.finishRead p bits).ground = s.ground := by
  simp only [State.finishRead]
  split
  · split
    · split
      · exact ground_deliverTo _ p
      · rfl
    · rfl
  · rfl

theorem ground_finishPlain (p : PortId) (bits : Nat) (s : State) : (s.finishPlain p bits).ground = s.ground := by
  simp only [State.finishPlain]
  split <;> rfl

/-! ### Requests of unknown kind, the dispatcher, and the store requests -/

theorem groundTo_unknownRequestKind : GroundTo s (execUnknownRequestKind s) := by
  simp only [execUnknownRequestKind]
  split
  · exact groundTo_self
  · split
    · exact groundTo_next rfl
    · exact groundTo_self

theorem groundTo_dispatch : GroundTo s (execDispatch s) := by
  simp only [execDispatch]
  split
  · split
    · split
      · exact groundTo_next rfl
      · exact groundTo_self
    · exact groundTo_self
  · exact groundTo_self

theorem ground_answer (s : State) (k : Kind) (r : Request) (a : Reply) : (s.answer k r a).ground = s.ground := rfl

theorem groundTo_sup {k : Kind} {d : Frame → State → Decision} (h : ∀ f, (d f s).1.ground = s.ground) :
    GroundTo s (.next (s.supRequest k d)) := by
  refine groundTo_next ?_
  rcases State.supRequest_cases (s := s) (k := k) d with e | ⟨f, a, -, -, e⟩ | ⟨f, -, -, e⟩ <;> rw [e]
  · rfl
  · exact h f

theorem groundTo_stageRequest {code : Byte} {len : Nat} {judge : Frame → State → Judged} :
    GroundTo s (.next (s.stageRequest code len judge)) := by
  have staged (j : Judged) : (s.stageCommand j).1.ground = s.ground := by
    simp only [State.stageCommand]
    split
    · rfl
    · rfl
    · split <;> rfl
  refine groundTo_next ?_
  rcases State.stageRequest_cases (s := s) code len judge with e | ⟨f, a, -, -, e⟩ | ⟨f, -, -, e⟩ <;> rw [e]
  · rfl
  · exact staged _

theorem ground_storeLaunch (f : Frame) : (storeLaunchDecision f s).1.ground = s.ground := by
  simp only [storeLaunchDecision]
  split
  · rfl
  · split
    · rfl
    · rfl
    · split <;> rfl

theorem ground_storeDiscard (f : Frame) : (storeDiscardDecision f s).1.ground = s.ground := by
  simp only [storeDiscardDecision]
  split <;> rfl

theorem ground_storeRead (f : Frame) : (storeReadDecision f s).1.ground = s.ground := by
  simp only [storeReadDecision]
  split <;> rfl

/-! ### What ticks end, and the grant rule's parts -/

theorem groundTo_leaseExpiry (i : SlotNo) : GroundTo s (execLeaseExpiry i s) := by
  simp only [execLeaseExpiry]
  split
  · exact groundTo_self
  · split
    · exact groundTo_next (ground_of_steady (by simp))
    · exact groundTo_self

theorem groundTo_graceEnd (i : SlotNo) : GroundTo s (execGraceEnd i s) := by
  simp only [execGraceEnd]
  split
  · exact groundTo_self
  · split
    · exact groundTo_next (ground_of_steady (by simp))
    · exact groundTo_self

theorem groundTo_waitTimeout (j : WaitNo) : GroundTo s (execWaitTimeout j s) := by
  simp only [execWaitTimeout]
  split
  · exact groundTo_self
  · split
    · exact groundTo_next (ground_of_steady (by simp))
    · exact groundTo_self

theorem groundTo_upgradeTimeout (n : ResNo) : GroundTo s (execUpgradeTimeout n s) := by
  simp only [execUpgradeTimeout]
  split
  · exact groundTo_next (ground_of_steady (by simp))
  · exact groundTo_self

theorem groundTo_grantFromQueue (n : ResNo) : GroundTo s (execGrantFromQueue n s) := by
  refine groundTo_ite ?_
  cases h : s.grantHead? n with
  | none => rfl
  | some t => exact ground_of_steady (steady_grantHead h)

theorem groundTo_activationApplication (n : ResNo) : GroundTo s (execActivationApplication n s) := by
  simp only [execActivationApplication]
  split
  · split
    · exact groundTo_next (ground_of_steady (by simp))
    · exact groundTo_self
  · exact groundTo_self

/-! ### Completions that read only (R144) -/

theorem groundTo_blankCheckComplete : GroundTo s (execBlankCheckComplete s) := by
  simp only [execBlankCheckComplete]
  split
  · exact groundTo_next (ground_complete s _ _)
  · exact groundTo_self

theorem groundTo_scanCrcComplete : GroundTo s (execScanCrcComplete s) := by
  simp only [execScanCrcComplete]
  split
  · exact groundTo_next (ground_complete s _ _)
  · exact groundTo_self

/-! ### Every command -/

theorem groundTo_client {k : Kind} {d : Client → Frame → State → Decision} (h : ∀ c f, Untouched s (d c f s).1) :
    GroundTo s (.next (s.clientRequest k d)) := (untouched_clientRequest h).groundTo

/-- Every command but those named leaves the ground as it was. -/
theorem groundTo_exec {c : Instr} (h : changesGround c = false) (s : State) : GroundTo s (exec c s) := by
  cases c with
  | writeTransaction p e sent => exact groundTo_next (ground_transact (ground_finishWrite p sent) s p _ e _)
  | readTransaction p e bits => exact groundTo_next (ground_transact (ground_finishRead p bits) s p _ e _)
  | statusTransaction p e bits => exact groundTo_next (ground_transact (ground_finishPlain p bits) s p _ e _)
  | unknownKindTransaction p e kind bits => exact groundTo_next (ground_transact (ground_finishPlain p bits) s p _ e _)
  | unknownRequestKind => exact groundTo_unknownRequestKind
  | acquire => exact groundTo_client untouched_acquire
  | cancelWait => exact groundTo_client untouched_cancelWait
  | release => exact groundTo_client untouched_release
  | renew => exact groundTo_client untouched_renew
  | upgrade => exact groundTo_client untouched_upgrade
  | cancelUpgrade => exact groundTo_client untouched_cancelUpgrade
  | downgrade => exact groundTo_client untouched_downgrade
  | verify => exact groundTo_client fun c f => .of_eq (state_verify c f)
  | queryResource => exact groundTo_client fun _ _ => .refl
  | queryLease => exact groundTo_client fun c f => .of_eq (state_queryLease c f)
  | listMine => exact groundTo_client fun _ _ => .refl
  | detach => exact groundTo_client fun c _ => untouched_detach c
  | resetPort => exact groundTo_next (framed_clientRequest fun c _ => framed_resetPort c.port).ground
  | status => exact groundTo_sup fun _ => rfl
  | readLease => exact groundTo_sup fun f => (untouched_readLease f).ground
  | readResource => exact groundTo_sup fun _ => rfl
  | readQueue => exact groundTo_sup fun f => (untouched_readQueue f).ground
  | readWait => exact groundTo_sup fun f => (untouched_readWait f).ground
  | revoke => exact groundTo_sup fun f => (untouched_revoke f).ground
  | revokeResource => exact groundTo_sup fun f => (untouched_revokeResource f).ground
  | purgeClient => exact groundTo_sup fun f => (untouched_purgeClient f).ground
  | activate => exact groundTo_sup fun f => (untouched_activate f).ground
  | cancelActivation => exact groundTo_sup fun f => (untouched_cancelActivation f).ground
  | storeStageProgramEntry => exact groundTo_stageRequest
  | storeStageErasePage => exact groundTo_stageRequest
  | storeStageEraseDirectory => exact groundTo_stageRequest
  | storeStageBlankCheck => exact groundTo_stageRequest
  | storeStageScanCrc => exact groundTo_stageRequest
  | storeStageWriteSettings => exact groundTo_stageRequest
  | storeStageInitHeader => exact groundTo_stageRequest
  | storeLaunch => exact groundTo_sup ground_storeLaunch
  | storeDiscard => exact groundTo_sup ground_storeDiscard
  | storeClear => exact groundTo_sup fun _ => rfl
  | storeRead => exact groundTo_sup ground_storeRead
  | leaseTableTick => exact groundTo_ite (Eq.trans (ground_of_steady (steady_leaseTick _)) rfl)
  | waitPoolTick order => exact groundTo_ite (Eq.trans (ground_of_steady (steady_waitTick _ order)) rfl)
  | pendingUpgradesTick order => exact groundTo_ite (Eq.trans (ground_of_steady (steady_upgradeTick _ order)) rfl)
  | leaseExpiry i => exact groundTo_leaseExpiry i
  | graceEnd i => exact groundTo_graceEnd i
  | waitTimeout j => exact groundTo_waitTimeout j
  | upgradeTimeout n => exact groundTo_upgradeTimeout n
  | grantFromQueue n => exact groundTo_grantFromQueue n
  | upgradeGrant n => exact groundTo_ite (ground_of_steady (by simp))
  | activationApplication n => exact groundTo_activationApplication n
  | owedNoticeDelivery p => exact groundTo_ite (ground_of_steady (by simp))
  | heldNoticeDelivery => exact groundTo_ite (ground_deliverHeld _ s)
  | dispatch => exact groundTo_dispatch
  | blankCheckComplete => exact groundTo_blankCheckComplete
  | scanCrcComplete => exact groundTo_scanCrcComplete
  | launchedCommandStart => exact groundTo_ite rfl
  | _ => simp [changesGround] at h

/-! ### The law of the timebase (R75, R76, R77) -/

/-- Where a command has a next state, the timebase is in its ranges if it was. -/
def TimebaseTo (s : State) (o : Host.Outcome State Fault Refusal) : Prop :=
  ∀ t : State, o = .next t → timebaseLaw s → timebaseLaw t

theorem timebaseTo_next (h : timebaseLaw s → timebaseLaw t) : TimebaseTo s (.next t) := by
  rintro u e
  obtain rfl := Host.Outcome.next.inj e
  exact h

theorem timebaseTo_self : TimebaseTo s (.next s) := timebaseTo_next id

theorem timebaseLaw_congr (hp : t.part = s.part) (hk : t.prescale = s.prescale) (hd : t.divider = s.divider)
    (law : timebaseLaw s) : timebaseLaw t := by
  simpa only [timebaseLaw, State.tickLength, hp, hk, hd] using law

theorem timebaseLaw_of_ground (h : t.ground = s.ground) : timebaseLaw s → timebaseLaw t :=
  timebaseLaw_congr (congrArg Ground.part h) (congrArg Ground.prescale h) (congrArg Ground.divider h)

/-- The divider at 0 is below one tick of any prescale in range. -/
theorem timebaseLaw_of_zero (low : 1 ≤ s.prescale) (high : s.prescale ≤ 64) (zero : s.divider = 0) : timebaseLaw s :=
  ⟨low, high, by rw [zero]; exact Nat.mul_pos (by decide) low, fun _ => zero⟩

/-- A start-up begins with the divider at 0, and keeps the prescale (R76, R149; log 20). -/
theorem timebaseLaw_startUpBegin (hk : t.prescale = s.prescale) : timebaseLaw s → timebaseLaw t.startUpBegin :=
  fun ⟨low, high, _⟩ => timebaseLaw_of_zero (s := t.startUpBegin) (hk ▸ low) (hk ▸ high) rfl

theorem timebaseTo_powerOn : TimebaseTo s (execPowerOn s) := by
  simp only [execPowerOn]
  split
  · exact timebaseTo_self
  · refine timebaseTo_next ?_
    split
    · exact id
    · exact timebaseLaw_startUpBegin rfl

theorem timebaseTo_resetAssert (done : Quirks) : TimebaseTo s (execResetAssert done s) := by
  simp only [execResetAssert]
  split
  · exact timebaseTo_self
  · exact timebaseTo_next (timebaseLaw_congr rfl rfl rfl)

theorem timebaseTo_resetRelease : TimebaseTo s (execResetRelease s) := by
  simp only [execResetRelease]
  split
  · refine timebaseTo_next ?_
    split
    · exact timebaseLaw_startUpBegin rfl
    · exact id
  · exact timebaseTo_self

theorem timebaseTo_powerLoss (done : Quirks) : TimebaseTo s (execPowerLoss done s) := by
  simp only [execPowerLoss]
  split
  · exact timebaseTo_next fun _ => timebaseLaw_of_zero (by decide : 1 ≤ Config.defaultPrescale)
      (by decide : Config.defaultPrescale ≤ 64) rfl
  · exact timebaseTo_self

theorem timebaseTo_restart (done : Quirks) : TimebaseTo s (execRestart done s) := by
  refine timebaseTo_next ?_
  split
  · split
    · split
      · split
        · exact timebaseLaw_startUpBegin rfl
        · exact timebaseLaw_of_ground (ground_answer s _ _ _)
      · exact id
    · exact id
    · exact id
  · exact id

/-- The prescale of a header page's settings is in range (R150). -/
theorem prescale_of_settingsOf {k a b c d : Byte} {x : Settings} (h : settingsOf? k a b c d = some x) :
    1 ≤ x.prescale ∧ x.prescale ≤ 64 := by
  simp only [settingsOf?] at h
  split at h
  · rename_i range
    split at h
    · obtain rfl := Option.some.inj h
      exact range
    · simp at h
  · simp at h

/-- So is that of the settings a start-up puts in force, the defaults among them (R154). -/
theorem prescale_of_settings (r : StartResult) : 1 ≤ r.settings.prescale ∧ r.settings.prescale ≤ 64 := by
  have defaults : 1 ≤ Settings.defaults.prescale ∧ Settings.defaults.prescale ≤ 64 := by decide
  simp only [StartResult.settings]
  split
  · exact defaults
  · split
    · rename_i page _
      cases e : headerSettings? (headerOf r.array page) with
      | none => exact defaults
      | some x => exact prescale_of_settingsOf e
    · exact defaults

theorem State.prescale_load (s : State) (r : StartResult) :
    (s.load r).prescale = r.settings.prescale ∧ (s.load r).divider = s.divider := by
  simp [State.load, allClientPorts, State.pushMessage]

theorem timebaseTo_startUpComplete (run : StartUpRun) : TimebaseTo s (execStartUpComplete run s) := by
  refine timebaseTo_next ?_
  split
  · rename_i starts
    simp only [Bool.and_eq_true, decide_eq_true_eq] at starts
    rintro ⟨-, -, -, zero⟩
    obtain ⟨low, high⟩ := prescale_of_settings (startUpFound s.array run)
    obtain ⟨prescale, divider⟩ := s.prescale_load (startUpFound s.array run)
    exact timebaseLaw_of_zero (prescale ▸ low) (prescale ▸ high) (divider.trans (zero starts.2))
  · exact id

/-- SET_TIMEBASE sets a prescale in range and the divider to 0, or leaves both (R77). -/
theorem ground_setTimebase (h : exec .setTimebase s = .next t) :
    t.ground = s.ground
      ∨ ∃ k, 1 ≤ k ∧ k ≤ 64 ∧ t.ground = { s.ground with prescale := k, divider := 0 } := by
  obtain rfl := Host.Outcome.next.inj h
  rcases State.supRequest_cases (s := s) (k := Kind.setTimebase) setTimebaseDecision
    with e | ⟨f, a, -, -, e⟩ | ⟨f, -, -, e⟩ <;> rw [e]
  · exact .inl rfl
  · exact .inl (ground_answer s _ _ _)
  · rw [ground_answer]
    simp only [setTimebaseDecision]
    split
    · exact .inl rfl
    · split
      · rename_i range
        exact .inr ⟨_, range.1, range.2, rfl⟩
      · exact .inl rfl

theorem timebaseTo_setTimebase : TimebaseTo s (exec .setTimebase s) := by
  intro t h
  rcases ground_setTimebase h with same | ⟨k, low, high, set⟩
  · exact timebaseLaw_of_ground same
  · have prescale : t.prescale = k := congrArg Ground.prescale set
    exact fun _ => timebaseLaw_of_zero (prescale ▸ low) (prescale ▸ high) (congrArg Ground.divider set)

theorem timebaseTo_tick (periods : Nat) : TimebaseTo s (execTick periods s) := by
  refine timebaseTo_next ?_
  split
  · rename_i counts
    simp only [State.counting, State.serving, Bool.and_eq_true, decide_eq_true_eq] at counts
    rintro ⟨low, high, below, -⟩
    exact ⟨low, high, Nat.mod_lt _ (Nat.zero_lt_of_lt below), fun starting => absurd starting counts.1.2⟩
  · exact id

theorem timebaseLaw_complete (op : StoreOp) (r : OpResult) : timebaseLaw s → timebaseLaw (s.complete op r) := by
  have ground := ground_complete s op r
  exact timebaseLaw_congr (congrArg Ground.part ground) (congrArg Ground.prescale ground)
    (congrArg Ground.divider ground)

/-- The completions of operations on the directory and of WRITE_SETTINGS end the same way. -/
theorem timebaseTo_storeComplete :
    (∀ q, TimebaseTo s (execProgramEntryComplete q s)) ∧ (∀ q, TimebaseTo s (execErasePageComplete q s))
      ∧ (∀ q, TimebaseTo s (execEraseDirectoryComplete q s)) ∧ ∀ q, TimebaseTo s (execWriteSettingsComplete q s) := by
  refine ⟨fun q => ?_, fun q => ?_, fun q => ?_, fun q => ?_⟩
  all_goals
    simp only [execProgramEntryComplete, execErasePageComplete, execEraseDirectoryComplete, execWriteSettingsComplete]
    split
    · exact timebaseTo_next (timebaseLaw_complete _ _)
    · exact timebaseTo_self

theorem timebaseTo_initHeaderComplete (phys : Quirks) : TimebaseTo s (execInitHeaderComplete phys s) := by
  simp only [execInitHeaderComplete]
  split
  · refine timebaseTo_next ?_
    split
    · exact timebaseLaw_startUpBegin rfl
    · exact timebaseLaw_complete _ _
  · exact timebaseTo_self

/-- Every command keeps the timebase in its ranges. -/
theorem timebaseTo_exec (c : Instr) (s : State) : TimebaseTo s (exec c s) := by
  cases changes : changesGround c with
  | false => exact fun t h => timebaseLaw_of_ground (groundTo_exec changes s t h)
  | true =>
    obtain ⟨program, page, directory, settings⟩ := timebaseTo_storeComplete (s := s)
    cases c with
    | powerOn => exact timebaseTo_powerOn
    | resetAssert done => exact timebaseTo_resetAssert done
    | resetRelease => exact timebaseTo_resetRelease
    | powerLoss done => exact timebaseTo_powerLoss done
    | startUpComplete run => exact timebaseTo_startUpComplete run
    | restart done => exact timebaseTo_restart done
    | setTimebase => exact timebaseTo_setTimebase
    | tick periods => exact timebaseTo_tick periods
    | programEntryComplete phys => exact program phys
    | erasePageComplete phys => exact page phys
    | eraseDirectoryComplete phys => exact directory phys
    | writeSettingsComplete phys => exact settings phys
    | initHeaderComplete phys => exact timebaseTo_initHeaderComplete phys
    | _ => simp [changesGround] at changes

/-- Settles O5: a step takes the front command from the queue and carries it out. -/
theorem timebaseLawKept : Obligations.TimebaseLawKept := by
  intro s t law h
  simp only [step] at h
  split at h
  · exact timebaseTo_self t h law
  · rename_i c rest _
    exact timebaseTo_exec c { s with pending := rest } t h law

/-! ### What the commands leave unchanged -/

theorem array_powerOn (h : exec .powerOn s = .next t) : t.array = s.array := by
  simp only [exec, execPowerOn] at h
  split at h <;> obtain rfl := Host.Outcome.next.inj h
  · rfl
  · split <;> rfl

theorem array_resetRelease (h : exec .resetRelease s = .next t) : t.array = s.array := by
  simp only [exec, execResetRelease] at h
  split at h <;> obtain rfl := Host.Outcome.next.inj h
  · split <;> rfl
  · rfl

theorem array_setTimebase (h : exec .setTimebase s = .next t) : t.array = s.array := by
  rcases ground_setTimebase h with same | ⟨k, -, -, set⟩
  · exact congrArg Ground.array same
  · exact congrArg Ground.array set

theorem array_tick {periods : Nat} (h : exec (.tick periods) s = .next t) : t.array = s.array := by
  obtain rfl := Host.Outcome.next.inj h
  split <;> rfl

/-- What a client request or a supervisor's request on leases leaves. -/
theorem untouched_exec {c : Instr} (hc : c ∈ clientRows ++ [.status, .readLease, .readResource, .readQueue, .readWait,
      .revoke, .revokeResource, .purgeClient, .activate, .cancelActivation]) (h : exec c s = .next t) :
    Framed s t ∧ (c ≠ .resetPort → Untouched s t) := by
  have row {u : State} (e : exec c s = .next u) (k : Untouched s u) : Framed s t ∧ (c ≠ .resetPort → Untouched s t) := by
    obtain rfl := Host.Outcome.next.inj (e.symm.trans h)
    exact ⟨k.toFramed, fun _ => k⟩
  simp only [clientRows, List.cons_append, List.nil_append, List.mem_cons, List.not_mem_nil, or_false] at hc
  rcases hc with rfl | rfl | rfl | rfl | rfl | rfl | rfl | rfl | rfl | rfl | rfl | rfl | rfl | rfl | rfl | rfl | rfl | rfl
    | rfl | rfl | rfl | rfl | rfl
  · exact row rfl (untouched_clientRequest untouched_acquire)
  · exact row rfl (untouched_clientRequest untouched_cancelWait)
  · exact row rfl (untouched_clientRequest untouched_release)
  · exact row rfl (untouched_clientRequest untouched_renew)
  · exact row rfl (untouched_clientRequest untouched_upgrade)
  · exact row rfl (untouched_clientRequest untouched_cancelUpgrade)
  · exact row rfl (untouched_clientRequest untouched_downgrade)
  · exact row rfl (untouched_clientRequest fun c f => .of_eq (state_verify c f))
  · exact row rfl (untouched_clientRequest (d := queryResourceDecision) fun _ _ => .refl)
  · exact row rfl (untouched_clientRequest fun c f => .of_eq (state_queryLease c f))
  · exact row rfl (untouched_clientRequest (d := listMineDecision) fun _ _ => .refl)
  · exact row rfl (untouched_clientRequest (d := detachDecision) fun c _ => untouched_detach c)
  · obtain rfl := Host.Outcome.next.inj h
    exact ⟨framed_clientRequest fun c _ => framed_resetPort c.port, fun other => absurd rfl other⟩
  · exact row rfl (untouched_supRequest (d := statusDecision) fun _ => .refl)
  · exact row rfl (untouched_supRequest untouched_readLease)
  · exact row rfl (untouched_supRequest (d := readResourceDecision) fun _ => .refl)
  · exact row rfl (untouched_supRequest untouched_readQueue)
  · exact row rfl (untouched_supRequest untouched_readWait)
  · exact row rfl (untouched_supRequest untouched_revoke)
  · exact row rfl (untouched_supRequest untouched_revokeResource)
  · exact row rfl (untouched_supRequest untouched_purgeClient)
  · exact row rfl (untouched_supRequest untouched_activate)
  · exact row rfl (untouched_supRequest untouched_cancelActivation)

/-- Settles O60: the array through the ground, and the requests through what they leave untouched. -/
theorem commandsLeaveTheRest : Obligations.CommandsLeaveTheRest := by
  refine ⟨fun c s t h writeless a => ?_, fun c hc s t h => ?_⟩
  · suffices same : t.array = s.array by rw [same]
    cases changes : changesGround c with
    | false => exact congrArg Ground.array (groundTo_exec changes s t h)
    | true =>
      cases c with
      | powerOn => exact array_powerOn h
      | resetRelease => exact array_resetRelease h
      | setTimebase => exact array_setTimebase h
      | tick periods => exact array_tick h
      | _ => simp_all [changesGround]
  · obtain ⟨framed, untouched⟩ := untouched_exec hc h
    refine ⟨framed.store, framed.array, framed.prescale, framed.run, framed.divider, framed.epoch, framed.part,
      framed.active, framed.rotation, fun p => congrFun framed.policies p, fun other p => ?_⟩
    have received := (untouched other).inbound p
    exact ⟨congrArg Inbound.fifo received, congrArg Inbound.overrun received, congrArg Inbound.frameError received,
      congrArg Inbound.restarted received⟩

end Sys2Proof.Machine
end

section
/-! PROOFS. VERIFY: the fence of the request, the holder that carries it, and the lines of R91 (R91, R93). -/

namespace Sys2Proof.Machine

variable {s : State} {n : ResNo} {x : Fence} {c : Client} {f : Frame}

/-! ### The holder whose lease carries a fence (R91, step 4) -/

/-- The slot with its lease, where it is live and its lease carries the fence. -/
def State.carrier? (s : State) (x : Fence) (i : SlotNo) : Option (SlotNo × Lease) :=
  ((s.slot i).body.live?.filter fun l => l.fence = x).map (i, ·)

theorem State.carrier_none {i : SlotNo} (other : (s.slot i).body.live?.map Lease.fence ≠ some x) :
    s.carrier? x i = none := by
  cases live : (s.slot i).body.live? with
  | none => simp [State.carrier?, live]
  | some l =>
    have differs : l.fence ≠ x := by simpa [live] using other
    simp [State.carrier?, live, differs]

theorem State.carrier_some {i : SlotNo} {l : Lease} (live : (s.slot i).body.live? = some l) (fence : l.fence = x) :
    s.carrier? x i = some (i, l) := by
  simp [State.carrier?, live, fence]

/-- The search of R91 takes the first holder that carries the fence. -/
theorem State.holderOf_eq : s.holderOf? n x = (s.record n).holders.findSome? (s.carrier? x) := by
  refine congrArg (fun g => (s.record n).holders.findSome? g) (funext fun i => ?_)
  cases live : (s.slot i).body.live? with
  | none => simp [State.carrier?, live]
  | some l => by_cases fence : l.fence = x <;> simp [State.carrier?, live, fence]

theorem State.holderOf_none
    (others : ∀ i ∈ (s.record n).holders, (s.slot i).body.live?.map Lease.fence ≠ some x) :
    s.holderOf? n x = none := by
  rw [State.holderOf_eq, List.findSome?_eq_none_iff]
  exact fun i held => State.carrier_none (others i held)

theorem State.holderOf_first {before after : List SlotNo} {i : SlotNo} {l : Lease}
    (holders : (s.record n).holders = before ++ i :: after)
    (others : ∀ k ∈ before, (s.slot k).body.live?.map Lease.fence ≠ some x)
    (live : (s.slot i).body.live? = some l) (fence : l.fence = x) : s.holderOf? n x = some (i, l) := by
  have skipped : before.findSome? (s.carrier? x) = none :=
    List.findSome?_eq_none_iff.2 fun k early => State.carrier_none (others k early)
  rw [State.holderOf_eq, holders, List.findSome?_append, skipped, Option.none_or, List.findSome?_cons,
    State.carrier_some live fence]

/-! ### The lines of R91 -/

theorem fenceOf_none {e q : Nat} (zero : e = 0 ∨ q = 0) : fenceOf? e q = none := if_pos zero

theorem fenceOf_some {e q : Nat} (epoch : e ≠ 0) (seq : q ≠ 0) : fenceOf? e q = some ⟨e, q⟩ :=
  if_neg (not_or.2 ⟨epoch, seq⟩)

/-- In SPENT every fence that can have been issued is of a prior epoch (R93). -/
theorem State.judge_spent (spent : s.part = .spent) :
    s.judge n x = Reply.bare (if x.epoch ≤ s.epoch then .priorEpoch else .neverIssued) := if_pos spent

section
variable (ready : s.part = .ready)

include ready

theorem State.judge_prior (prior : x.epoch < s.epoch) : s.judge n x = Reply.bare .priorEpoch := by
  simp only [State.judge, ready, reduceCtorEq, if_false, if_pos prior]

theorem State.judge_ahead (ahead : s.epoch < x.epoch) : s.judge n x = Reply.bare .neverIssued := by
  simp only [State.judge, ready, reduceCtorEq, if_false, if_neg ahead.asymm, if_pos ahead]

variable (current : x.epoch = s.epoch)

include current

theorem State.judge_unissued (unissued : (s.record n).lastSeq < x.seq) :
    s.judge n x = Reply.bare .neverIssued := by
  simp only [State.judge, ready, current, reduceCtorEq, Nat.lt_irrefl, if_false, if_pos unissued]

variable (issued : x.seq ≤ (s.record n).lastSeq)

include issued

theorem State.judge_stale (unheld : s.holderOf? n x = none) : s.judge n x = Reply.bare .stale := by
  simp only [State.judge, ready, current, reduceCtorEq, Nat.lt_irrefl, if_false, if_neg (Nat.not_lt.2 issued), unheld]

theorem State.judge_current {i : SlotNo} {l : Lease} (held : s.holderOf? n x = some (i, l)) :
    s.judge n x =
      { status := .current, extra := [l.mode.code, (s.slot i).body.code, l.client.number] } := by
  simp only [State.judge, ready, current, reduceCtorEq, Nat.lt_irrefl, if_false, if_neg (Nat.not_lt.2 issued), held]

end

theorem verifyDecision_malformed (zero : f.word 5 = 0 ∨ f.word 7 = 0) :
    verifyDecision c f s = s.refuse .badRequest := by
  simp only [verifyDecision, fenceOf_none zero]

theorem verifyDecision_judged (epoch : f.word 5 ≠ 0) (seq : f.word 7 ≠ 0) :
    verifyDecision c f s = (s, s.judge f.resource ⟨f.word 5, f.word 7⟩) := by
  simp only [verifyDecision, fenceOf_some epoch seq]

/-- Settles O39: each line of R91 from the judgement of the fence it applies to. -/
theorem verifyJudgesFence : Obligations.VerifyJudgesFence := by
  intro s c f asks
  refine ⟨fun zero => exec_decided (d := verifyDecision) rfl asks (verifyDecision_malformed zero),
    fun epoch seq => ?_⟩
  have judged {a : Reply} (line : s.judge f.resource ⟨f.word 5, f.word 7⟩ = a) :
      exec .verify s = .next (s.clientAnswer Kind.verify c f a) :=
    exec_decided (d := verifyDecision) rfl asks (by rw [verifyDecision_judged epoch seq, line])
  refine ⟨fun spent prior => judged ?_, fun spent ahead => judged ?_, fun ready => ⟨fun prior => judged ?_,
    fun ahead => judged ?_, fun current unissued => judged ?_, fun current issued => ⟨fun unheld => judged ?_,
      fun before after i l holders others live fence => judged ?_⟩⟩⟩
  · rw [State.judge_spent spent, if_pos prior]
  · rw [State.judge_spent spent, if_neg (Nat.not_le.2 ahead)]
  · exact State.judge_prior ready prior
  · exact State.judge_ahead ready ahead
  · exact State.judge_unissued ready current unissued
  · exact State.judge_stale ready current issued (State.holderOf_none unheld)
  · exact State.judge_current ready current issued (State.holderOf_first holders others live fence)

end Sys2Proof.Machine
end

section
/-! PROOFS. The reads of the clients and of the supervisor: what each decides on its operands (R96, R98, R99, R124 to
R129, R147, R158). -/

namespace Sys2Proof.Machine

variable {s : State} {c : Client} {f : Frame}

/-! ### The operands -/

theorem waitOf_none {b : Byte} (h : 48 ≤ b.toNat) : waitOf? b = none := by
  simp [waitOf?, Nat.not_lt.2 h]

/-- A handle that is accepted for some client names a lease (R24). -/
theorem State.accept_for {d : Client} {i : SlotNo} {l : Lease} (handle : s.handleFor d f i l) :
    s.accept i (byteAt f 5) = some l := by
  obtain ⟨-, generation, live, -⟩ := handle
  simp [State.accept, generation, live]

/-! ### The decisions -/

/-- QUERY_LEASE takes an accepted handle of any client (R98). -/
theorem queryLeaseDecision_for {d : Client} {i : SlotNo} {l : Lease} (handle : s.handleFor d f i l) :
    queryLeaseDecision c f s =
      (s, { status := .ok
            extra := s.slotSnapshot i ++ [l.client.number] ++ be16 l.granted ++ [byteOf l.renewals] }) := by
  have accepted := State.accept_for handle
  obtain ⟨slot, -⟩ := handle
  simp only [queryLeaseDecision, slot, slotOf_byteOf, accepted]

theorem readLeaseDecision_slot {i : SlotNo} (slot : byteAt f 4 = byteOf i.val) :
    readLeaseDecision f s = (s, { status := .ok, extra := s.slotReport i }) := by
  simp only [readLeaseDecision, slot, slotOf_byteOf]

theorem readLeaseDecision_malformed (high : 128 ≤ (byteAt f 4).toNat) :
    readLeaseDecision f s = s.refuse .badRequest := by
  simp only [readLeaseDecision, slotOf_none high]

theorem readQueueDecision_from {start : Nat} (position : byteAt f 5 = byteOf start) (low : 1 ≤ start)
    (high : start ≤ 48) :
    readQueueDecision f s =
      (s, { status := .ok
            extra := [byteOf (s.record f.resource).queue.length, byteOf start,
                byteOf (((s.record f.resource).queue.drop (start - 1)).take 8).length]
              ++ (((s.record f.resource).queue.drop (start - 1)).take 8).flatMap s.queueItem }) := by
  have number : (byteAt f 5).toNat = start := by rw [position, toNat_byteOf (by omega)]
  simp only [readQueueDecision, number, low, high, and_self, if_true, queueItems]

theorem readQueueDecision_malformed (range : (byteAt f 5).toNat = 0 ∨ 48 < (byteAt f 5).toNat) :
    readQueueDecision f s = s.refuse .badRequest :=
  if_neg (by omega)

theorem readWaitDecision_entry {j : WaitNo} (entry : byteAt f 4 = byteOf j.val) :
    readWaitDecision f s = (s, { status := .ok, extra := s.waitReport j }) := by
  simp only [readWaitDecision, entry, waitOf_byteOf]

theorem readWaitDecision_malformed (high : 48 ≤ (byteAt f 4).toNat) :
    readWaitDecision f s = s.refuse .badRequest := by
  simp only [readWaitDecision, waitOf_none high]

/-- STORE_READ gives the stored image while no operation changes its page (R147). -/
theorem storeReadDecision_idle (idle : s.pageBusy f.resource = false) :
    storeReadDecision f s =
      (s, { status := .ok
            extra := imageOf s.array f.resource ++ [imageCheck (imageOf s.array f.resource)] }) := by
  simp only [storeReadDecision, idle, Bool.false_eq_true, if_false]

theorem storeReadDecision_busy (busy : s.pageBusy f.resource = true) :
    storeReadDecision f s = s.refuse .storeBusy :=
  if_pos busy

/-- Settles O40: each row's decision on its operands, which leaves the state as it is. -/
theorem readsOnlyAnswer : Obligations.ReadsOnlyAnswer := by
  intro s c f
  refine ⟨fun asks => ?_, fun i l d asks handle => ?_, fun asks => ?_, fun asks => ?_, fun i asks slot => ?_,
    fun asks high => ?_, fun asks => ?_, fun start asks position low high => ?_, fun asks range => ?_,
    fun j asks entry => ?_, fun asks high => ?_, fun asks idle => ?_, fun asks busy => ?_⟩
  · exact exec_decided (d := queryResourceDecision) rfl asks rfl
  · exact exec_decided (d := queryLeaseDecision) rfl asks (queryLeaseDecision_for handle)
  · exact exec_decided (d := listMineDecision) rfl asks rfl
  · exact exec_supDecided (d := statusDecision) rfl asks rfl
  · exact exec_supDecided (d := readLeaseDecision) rfl asks (readLeaseDecision_slot slot)
  · exact exec_supDecided (d := readLeaseDecision) rfl asks (readLeaseDecision_malformed high)
  · exact exec_supDecided (d := readResourceDecision) rfl asks rfl
  · exact exec_supDecided (d := readQueueDecision) rfl asks (readQueueDecision_from position low high)
  · exact exec_supDecided (d := readQueueDecision) rfl asks (readQueueDecision_malformed range)
  · exact exec_supDecided (d := readWaitDecision) rfl asks (readWaitDecision_entry entry)
  · exact exec_supDecided (d := readWaitDecision) rfl asks (readWaitDecision_malformed high)
  · exact exec_supDecided (d := storeReadDecision) rfl asks (storeReadDecision_idle idle)
  · exact exec_supDecided (d := storeReadDecision) rfl asks (storeReadDecision_busy busy)

end Sys2Proof.Machine
end

section
/-! PROOFS. What the requests let the outbound queues take, and that no port leaves its limits by it: the depth and the
notice limit of its queue, and the four frames of its FIFO (R103, R109, R110, Table 7-1). -/

namespace Sys2Proof.Machine

variable {s t : State}

/-! ### The limits of the ports -/

/-- The port unit keeps the limits of R110 and the four frames of its FIFO (Table 7-1). -/
def PortUnit.lawful (p : PortId) (u : PortUnit) : Prop := u.fits p ∧ u.fifo.length ≤ 4

theorem queueLaw_iff : queueLaw s ↔ ∀ p, (s.port p).lawful p := forall_congr' fun _ => and_assoc.symm

/-- No port leaves its limits, and every reserved entry stays reserved. -/
structure PortsHold (s t : State) : Prop where
  lawful : ∀ p, (s.port p).lawful p → (t.port p).lawful p
  reserved : ∀ p, (t.port p).reserved = (s.port p).reserved

theorem PortsHold.refl : PortsHold s s := ⟨fun _ => id, fun _ => rfl⟩

theorem PortsHold.trans {u : State} (h : PortsHold s t) (k : PortsHold t u) : PortsHold s u :=
  ⟨fun p x => k.lawful p (h.lawful p x), fun p => (k.reserved p).trans (h.reserved p)⟩

theorem PortsHold.of_ports (h : t.ports = s.ports) : PortsHold s t := by
  have same (p : PortId) : t.port p = s.port p := by rw [State.port, State.port, h]
  exact ⟨fun p => by rw [same]; exact id, fun p => by rw [same]⟩

/-- Queues that grow by notices within their limits leave the FIFOs and the reservations. -/
theorem PortsGrow.hold (h : PortsGrow s t) : PortsHold s t := by
  refine ⟨fun p ⟨fits, fifo⟩ => ⟨h.fits fits, ?_⟩, h.reserved⟩
  obtain ⟨ms, -, grown, -⟩ := h p
  rwa [grown]

theorem portsHold_setPort {p : PortId} {u : PortUnit} (hl : (s.port p).lawful p → u.lawful p)
    (hr : u.reserved = (s.port p).reserved) : PortsHold s (s.setPort p u) := by
  refine ⟨fun q => ?_, fun q => ?_⟩ <;> rw [State.port_setPort] <;> split
  · rename_i e
    rw [e]
    exact hl
  · exact id
  · rename_i e
    rw [e, hr]
  · rfl

/-- A message pushed where there is room keeps the limits, a notice or not. -/
theorem portsHold_pushMessage {p : PortId} (m : Message) (room : (s.port p).room p = true) :
    PortsHold s (s.pushMessage p m) := by
  refine portsHold_setPort (fun ⟨_, fifo⟩ => ⟨?_, fifo⟩) rfl
  simp only [PortUnit.room, Bool.and_eq_true, decide_eq_true_eq] at room
  obtain ⟨notices, taken⟩ := room
  have one := List.length_filter_le Message.isNotice [m]
  simp only [List.length_singleton] at one
  simp only [PortUnit.taken, PortUnit.notices] at notices taken
  simp only [PortUnit.fits, PortUnit.taken, PortUnit.notices, List.length_append, List.filter_append,
    List.length_singleton]
  omega

/-- A unit from which messages have gone keeps the limits. -/
theorem PortUnit.lawful_of_sublist {p : PortId} {u v : PortUnit} (hq : v.queue.Sublist u.queue)
    (hr : v.reserved = u.reserved) (hf : v.fifo.length ≤ u.fifo.length) (h : u.lawful p) : v.lawful p := by
  obtain ⟨⟨taken, notices⟩, fifo⟩ := h
  have fewer := hq.length_le
  refine ⟨⟨?_, le_trans (hq.filter _).length_le notices⟩, hf.trans fifo⟩
  simp only [PortUnit.taken, hr] at taken ⊢
  omega

/-! ### The client requests -/

theorem ports_acquire (c : Client) (f : Frame) : PortsGrow s (acquireDecision c f s).1 := by
  simp only [acquireDecision]
  split
  · exact .rfl
  · split
    · exact .rfl
    · split
      · exact .rfl
      · simp only [State.acquirePlace]
        split
        · exact .rfl
        · rename_i i _
          split
          · exact PortsGrow.trans (t := s.grantSlot i _ c _ _) (.of_ports rfl) (ports_exhaust _ _)
          · split
            · exact .rfl
            · split
              · exact .rfl
              · exact .of_ports rfl

theorem ports_cancelWait (c : Client) (f : Frame) : PortsGrow s (cancelWaitDecision c f s).1 := by
  simp only [cancelWaitDecision]
  split
  · exact (ports_endWaitQuiet s _).trans (ports_grantRule _ _)
  · exact .rfl

theorem ports_release (c : Client) (f : Frame) : PortsGrow s (releaseDecision c f s).1 :=
  ports_withHandle s fun i _ => (ports_endLeaseQuiet s i).trans (ports_grantRule _ _)

theorem ports_renew (c : Client) (f : Frame) : PortsGrow s (renewDecision c f s).1 := by
  refine ports_withHandle s fun i l => ?_
  split
  · exact .rfl
  · have withdrawn : PortsGrow s (if l.owed = some .expiryWarning then s.withdraw l.client.port (.slot i) else s) := by
      split
      · exact ports_withdraw s _ _
      · exact .rfl
    exact withdrawn.trans (.of_ports rfl)

theorem ports_upgrade (c : Client) (f : Frame) : PortsGrow s (upgradeDecision c f s).1 := by
  refine ports_withHandle s fun i l => ?_
  split
  · exact .rfl
  · dsimp only
    split
    · exact PortsGrow.trans (t := s.upgradeSlot i l.resource) (.of_ports rfl) (ports_exhaust _ _)
    · split
      · exact .rfl
      · exact .of_ports rfl

theorem ports_cancelUpgrade (c : Client) (f : Frame) : PortsGrow s (cancelUpgradeDecision c f s).1 := by
  refine ports_withHandle s fun i l => ?_
  split
  · exact (ports_clearUpgrade s _).trans (ports_grantRule _ _)
  · exact .rfl

theorem ports_downgrade (c : Client) (f : Frame) : PortsGrow s (downgradeDecision c f s).1 := by
  refine ports_withHandle s fun i l => ?_
  split
  · exact .rfl
  · exact PortsGrow.trans (t := s.downgradeSlot i) (.of_ports rfl) (ports_grantRule _ _)

/-- What DETACH and RESET_PORT share: waits end, upgrades are cleared, leases end, and the grant rules run. -/
theorem ports_detachAll (s : State) (js : List WaitNo) (ns ms : List ResNo) (ls : List SlotNo) :
    PortsGrow s ((((s.endWaitsQuiet js).clearUpgrades ns).endLeasesQuiet ls).grantRules ms) :=
  (ports_endWaitsQuiet _ _).trans <| (ports_clearUpgrades _ _).trans <| (ports_endLeasesQuiet _ _).trans
    (ports_grantRules _ _)

/-- DETACH takes notices out of the queue, and may then put others in (R116). -/
theorem portsHold_detach (c : Client) : PortsHold s (s.detach c).1 := by
  refine PortsHold.trans (t := s.setPort (.client c.port) ((s.port (.client c.port)).dropNotices c.tag))
    (portsHold_setPort (PortUnit.lawful_of_sublist List.filter_sublist rfl le_rfl) rfl) (PortsGrow.hold ?_)
  exact (ports_withdrawAll _ _ _).trans <| (ports_detachAll _ _ _ _ _).trans (ports_deliverAllOwed _ _)

/-- RESET_PORT empties the FIFO and the queue of its port (R117). -/
theorem portsHold_resetPort (p : CPort) : PortsHold s (s.resetPort p).1 := by
  refine PortsHold.trans (t := s.setPort (.client p) (s.port (.client p)).cleared)
    (portsHold_setPort (PortUnit.lawful_of_sublist (List.nil_sublist _) rfl (Nat.zero_le _)) rfl) (PortsGrow.hold ?_)
  exact (ports_withdrawAll _ _ _).trans (ports_detachAll _ _ _ _ _)

/-! ### The supervisor's requests -/

theorem ports_revoke (f : Frame) : PortsGrow s (revokeDecision f s).1 := by
  simp only [revokeDecision, State.revokeOne]
  split
  · split
    · exact .rfl
    · split
      · exact .rfl
      · dsimp only
        split
        · exact (ports_revokeSlot s _ _).trans (ports_grantRule _ _)
        · exact ports_revokeSlot s _ _
  · exact .rfl

theorem ports_revokeResource (f : Frame) : PortsGrow s (revokeResourceDecision f s).1 := by
  simp only [revokeResourceDecision, State.revokeHolders]
  split
  · exact .rfl
  · dsimp only
    split
    · exact (ports_revokeAll s _ _).trans (ports_grantRule _ _)
    · exact ports_revokeAll s _ _

/-- PURGE_CLIENT queues what notices find room (R132). -/
theorem ports_purge (c : Client) : PortsGrow s (s.purge c).1 :=
  (ports_withdrawAll _ _ _).trans <| (PortsGrow.foldl ports_endWaitPurged _ _).trans <|
    (PortsGrow.foldl ports_endLeasePurged _ _).trans (ports_grantRules _ _)

theorem ports_purgeClient (f : Frame) : PortsGrow s (purgeClientDecision f s).1 := by
  simp only [purgeClientDecision]
  split
  · exact ports_purge _
  · exact .rfl

theorem ports_drain (n : ResNo) (a : Activation) : PortsGrow s (s.drain n a).1 := by
  have revoked : PortsGrow s (if a.revoke then s.revokeAll (s.activeHolders n) (s.entry n).fieldsD.grace else s) := by
    split
    · exact ports_revokeAll s _ _
    · exact .rfl
  simp only [State.drain]
  generalize (if a.revoke then s.revokeAll (s.activeHolders n) (s.entry n).fieldsD.grace else s) = u at revoked ⊢
  split
  · exact revoked.trans (ports_applyNow u n _)
  · exact revoked

theorem ports_activateImage (n : ResNo) (a : Activation) : PortsGrow s (s.activate n a).1 := by
  have listed : PortsGrow s (s.setActivations (replacePending n a s.activations)) := .of_ports rfl
  have recorded : PortsGrow s (s.recordActivation n a) := .of_ports rfl
  simp only [State.activate]
  split
  · split
    · exact listed.trans (ports_drain n a)
    · exact listed
  · split
    · exact .of_ports rfl
    · split
      · exact .rfl
      · exact (recorded.trans (ports_endUpgrade _ _ _)).trans (ports_drain n a)

theorem ports_activate (f : Frame) : PortsGrow s (activateDecision f s).1 := by
  simp only [activateDecision]
  split
  · exact .rfl
  · split
    · exact .rfl
    · exact ports_activateImage _ _

theorem ports_cancelActivation (f : Frame) : PortsGrow s (cancelActivationDecision f s).1 := by
  simp only [cancelActivationDecision]
  split
  · exact PortsGrow.trans (t := s.cancelActivation f.resource) (.of_ports rfl) (ports_grantRule _ _)
  · exact .rfl

end Sys2Proof.Machine
end

section
/-! PROOFS. Every step keeps the port law: the limits of the ports, the entry reserved for the request in hand, and what
a start-up in progress leaves empty (R100, R103, R109, R110, R136). -/

namespace Sys2Proof.Machine

variable {s t : State}

/-- Outside STARTING, the ports' limits and the reserved entry are the whole law. -/
theorem portLaw_of_started (hp : t.part ≠ .starting) (hold : PortsHold s t) (reserved : reservedLaw t) :
    portLaw s → portLaw t := fun ⟨_, queues, _⟩ =>
  ⟨fun starting => absurd starting hp,
    queueLaw_iff.2 fun p => hold.lawful p (queueLaw_iff.1 queues p), reserved⟩

/-- The law rests on the part state, the engine, the ports, the owed lists and what port S waits for. -/
theorem portLaw_congr (hp : t.part = s.part) (he : t.engine = s.engine) (hq : t.ports = s.ports)
    (hd : t.sides = s.sides) (ha : t.activations = s.activations) (hh : t.store.held = s.store.held) :
    portLaw s → portLaw t := by
  simp only [portLaw, startLaw, queueLaw, reservedLaw, State.port, State.side, hp, he, hq, hd, ha, hh]
  exact id

/-- Nothing queued, reserved, received, owed, held, listed or in hand (R100). -/
theorem portLaw_of_empty (he : t.engine = none) (hh : t.store.held = []) (ha : t.activations = [])
    (hp : ∀ p, (t.port p).queue = [] ∧ (t.port p).reserved = false ∧ (t.port p).fifo = [])
    (hd : ∀ p, (t.side p).owed = []) : portLaw t := by
  refine ⟨fun _ => ⟨he, hh, ha, fun p => ⟨(hp p).1, (hp p).2.1⟩, hd⟩, fun p => ?_, ?_⟩
  · obtain ⟨queue, reserved, fifo⟩ := hp p
    simp [PortUnit.taken, PortUnit.notices, queue, reserved, fifo]
  · simp [reservedLaw, he]

/-! ### The work of a command outside STARTING -/

/-- The part state and the request in hand are as they were, and the ports keep their limits and reservations. -/
structure PortWork (s t : State) : Prop extends PortsHold s t where
  part : t.part = s.part
  engine : t.engine = s.engine

theorem PortWork.refl : PortWork s s := ⟨.refl, rfl, rfl⟩

theorem PortWork.trans {u : State} (h : PortWork s t) (k : PortWork t u) : PortWork s u :=
  ⟨h.toPortsHold.trans k.toPortsHold, k.part.trans h.part, k.engine.trans h.engine⟩

theorem PortWork.of_grow (h : t.steady = s.steady) (g : PortsGrow s t) : PortWork s t :=
  ⟨g.hold, congrArg Steady.part h, congrArg Steady.engine h⟩

theorem PortWork.of_ports (hp : t.part = s.part) (he : t.engine = s.engine) (h : t.ports = s.ports) : PortWork s t :=
  ⟨.of_ports h, hp, he⟩

theorem PortWork.portLaw (h : PortWork s t) (hs : s.part ≠ .starting) (law : portLaw s) : portLaw t := by
  refine portLaw_of_started (h.part ▸ hs) h.toPortsHold ?_ law
  obtain ⟨-, -, reserved⟩ := law
  simp only [reservedLaw, h.engine, h.reserved] at reserved ⊢
  exact reserved

/-- The response takes the reserved entry, and so keeps the limits of its port (R109). -/
theorem portLaw_placeResponse {u : State} {p : PortId} {m : Message} (hm : m.isNotice = false)
    (hs : s.part ≠ .starting) (hp : u.part = s.part) (hold : PortsHold s u) (hr : (s.port p).reserved = true) :
    portLaw s → portLaw (u.placeResponse p m) := by
  rintro ⟨-, queues, -⟩
  refine ⟨fun starting => absurd (hp ▸ starting) hs, queueLaw_iff.2 fun q => ?_, trivial⟩
  have lawful := hold.lawful q (queueLaw_iff.1 queues q)
  rw [State.port_placeResponse]
  split
  · rename_i e
    rw [e] at lawful
    obtain ⟨⟨taken, notices⟩, fifo⟩ := lawful
    rw [PortUnit.taken, hold.reserved, hr] at taken
    exact ⟨⟨by simpa [PortUnit.taken, e] using taken, by simpa [PortUnit.notices, hm, e] using notices⟩, fifo⟩
  · exact lawful

/-- Where a command has a next state, the port law holds in it if it did before. -/
def PortTo (s : State) (o : Host.Outcome State Fault Refusal) : Prop :=
  ∀ t : State, o = .next t → portLaw s → portLaw t

theorem portTo_next (h : portLaw s → portLaw t) : PortTo s (.next t) := by
  rintro u e
  obtain rfl := Host.Outcome.next.inj e
  exact h

theorem portTo_self : PortTo s (.next s) := portTo_next id

theorem PortWork.portTo (h : PortWork s t) (hs : s.part ≠ .starting) : PortTo s (.next t) := portTo_next (h.portLaw hs)

/-- A row that acts only where its condition holds, which is outside STARTING (log 12). -/
theorem portTo_ite {c : Prop} [Decidable c] (hs : c → s.part ≠ .starting) (h : PortWork s t) :
    PortTo s (.next (if c then t else s)) := by
  split
  · rename_i holds
    exact h.portTo (hs holds)
  · exact portTo_self

theorem part_of_counting (h : s.counting = true) : s.part ≠ .starting := by
  simp only [State.counting, Bool.and_eq_true] at h
  exact part_of_serving h.1

/-! ### Requests -/

/-- The request in hand has its entry reserved, as long as the law holds (R109). -/
theorem reserved_of_engine {r : Request} (he : s.engine = some r) (law : portLaw s) :
    (s.port r.port).reserved = true := by
  obtain ⟨-, -, reserved⟩ := law
  simpa only [reservedLaw, he] using reserved

theorem portLaw_answer {u : State} {k : Kind} {r : Request} {a : Reply} (hs : s.serving = true)
    (he : s.engine = some r) (hp : u.part = s.part) (hold : PortsHold s u) (law : portLaw s) :
    portLaw (u.answer k r a) :=
  portLaw_placeResponse rfl (part_of_serving hs) hp hold (reserved_of_engine he law) law

theorem portTo_client {k : Kind} {d : Client → Frame → State → Decision} (part : ∀ c f, (d c f s).1.part = s.part)
    (hold : ∀ c f, PortsHold s (d c f s).1) : PortTo s (.next (s.clientRequest k d)) := by
  refine portTo_next fun law => ?_
  rcases State.clientRequest_cases (s := s) (k := k) d with e | ⟨p, f, a, hs, he, e⟩ | ⟨p, f, t, hs, he, -, e⟩
      <;> rw [e]
  · exact law
  · exact portLaw_answer hs he rfl .refl law
  · exact portLaw_answer hs he (part _ f) (hold _ f) law

/-- A client request whose decision lets the queues grow by notices alone. -/
theorem portTo_clientGrow {k : Kind} {d : Client → Frame → State → Decision}
    (untouched : ∀ c f, Untouched s (d c f s).1)
    (grow : ∀ c f, PortsGrow s (d c f s).1) : PortTo s (.next (s.clientRequest k d)) :=
  portTo_client (fun c f => (untouched c f).part) fun c f => (grow c f).hold

theorem portTo_sup {k : Kind} {d : Frame → State → Decision} (part : ∀ f, (d f s).1.part = s.part)
    (hold : ∀ f, PortsHold s (d f s).1) : PortTo s (.next (s.supRequest k d)) := by
  refine portTo_next fun law => ?_
  rcases State.supRequest_cases (s := s) (k := k) d with e | ⟨f, a, hs, he, e⟩ | ⟨f, hs, he, e⟩ <;> rw [e]
  · exact law
  · exact portLaw_answer hs he rfl .refl law
  · exact portLaw_answer hs he (part f) (hold f) law

theorem portTo_supGrow {k : Kind} {d : Frame → State → Decision} (untouched : ∀ f, Untouched s (d f s).1)
    (grow : ∀ f, PortsGrow s (d f s).1) : PortTo s (.next (s.supRequest k d)) :=
  portTo_sup (fun f => (untouched f).part) fun f => (grow f).hold

/-- A supervisor request that leaves the ports and the part state to its answer. -/
theorem portTo_supQuiet {k : Kind} {d : Frame → State → Decision}
    (h : ∀ f, (d f s).1.part = s.part ∧ (d f s).1.ports = s.ports) : PortTo s (.next (s.supRequest k d)) :=
  portTo_sup (fun f => (h f).1) fun f => .of_ports (h f).2

theorem State.setTimebase_quiet (f : Frame) :
    (setTimebaseDecision f s).1.part = s.part ∧ (setTimebaseDecision f s).1.ports = s.ports := by
  simp only [setTimebaseDecision]
  split
  · exact ⟨rfl, rfl⟩
  · split <;> exact ⟨rfl, rfl⟩

theorem State.storeLaunch_quiet (f : Frame) :
    (storeLaunchDecision f s).1.part = s.part ∧ (storeLaunchDecision f s).1.ports = s.ports := by
  simp only [storeLaunchDecision]
  split
  · exact ⟨rfl, rfl⟩
  · split
    · exact ⟨rfl, rfl⟩
    · exact ⟨rfl, rfl⟩
    · split <;> exact ⟨rfl, rfl⟩

theorem State.storeDiscard_quiet (f : Frame) :
    (storeDiscardDecision f s).1.part = s.part ∧ (storeDiscardDecision f s).1.ports = s.ports := by
  simp only [storeDiscardDecision]
  split <;> exact ⟨rfl, rfl⟩

theorem State.storeRead_quiet (f : Frame) :
    (storeReadDecision f s).1.part = s.part ∧ (storeReadDecision f s).1.ports = s.ports := by
  simp only [storeReadDecision]
  split <;> exact ⟨rfl, rfl⟩

theorem State.stageCommand_quiet (j : Judged) :
    (s.stageCommand j).1.part = s.part ∧ (s.stageCommand j).1.ports = s.ports := by
  simp only [State.stageCommand]
  split
  · exact ⟨rfl, rfl⟩
  · exact ⟨rfl, rfl⟩
  · split <;> exact ⟨rfl, rfl⟩

theorem portTo_stageRequest {code : Byte} {len : Nat} {judge : Frame → State → Judged} :
    PortTo s (.next (s.stageRequest code len judge)) := by
  refine portTo_next fun law => ?_
  rcases State.stageRequest_cases (s := s) code len judge with e | ⟨f, a, hs, he, e⟩ | ⟨f, hs, he, e⟩ <;> rw [e]
  · exact law
  · exact portLaw_answer hs he rfl .refl law
  · exact portLaw_answer hs he (State.stageCommand_quiet _).1 (.of_ports (State.stageCommand_quiet _).2) law

theorem portTo_unknownRequestKind : PortTo s (execUnknownRequestKind s) := by
  simp only [execUnknownRequestKind]
  split
  · exact portTo_self
  · rename_i r he
    split
    · rename_i runs
      simp only [Bool.and_eq_true] at runs
      exact portTo_next fun law => portLaw_placeResponse (s := s) rfl (part_of_serving runs.1) rfl .refl
        (reserved_of_engine he law) law
    · exact portTo_self

/-- The dispatcher takes a frame off a FIFO and reserves a free entry (R108). -/
theorem portLaw_takeFrame {p : PortId} (f : Frame) (hs : s.part ≠ .starting) (eligible : s.eligible p = true) :
    portLaw s → portLaw (s.takeFrame p f) := by
  rintro ⟨-, queues, -⟩
  simp only [State.eligible, Bool.and_eq_true, decide_eq_true_eq] at eligible
  have ports (q : PortId) : (s.takeFrame p f).port q =
      if q = p then { s.port p with fifo := (s.port p).fifo.tail, reserved := true } else s.port q :=
    State.port_setPort s p q _
  refine ⟨fun starting => absurd starting hs, queueLaw_iff.2 fun q => ?_, ?_⟩
  · rw [ports]
    split
    · rename_i e
      obtain ⟨⟨taken, notices⟩, fifo⟩ := queueLaw_iff.1 queues q
      rw [e] at notices fifo ⊢
      have free := eligible.2
      refine ⟨⟨?_, notices⟩, by simp only [List.length_tail]; omega⟩
      simp only [PortUnit.taken, Bool.toNat_true] at free ⊢
      omega
    · exact queueLaw_iff.1 queues q
  · change ((s.takeFrame p f).port p).reserved = true
    rw [ports, if_pos rfl]

theorem portTo_dispatch : PortTo s (execDispatch s) := by
  simp only [execDispatch]
  split
  · rename_i free
    simp only [Bool.and_eq_true] at free
    split
    · rename_i p next
      split
      · exact portTo_next (portLaw_takeFrame _ (part_of_serving free.1) (List.find?_some next))
      · exact portTo_self
    · exact portTo_self
  · exact portTo_self

/-! ### Store notices, held notices and completions (R122, R123, R141) -/

theorem portWork_raiseStoreNotice (m : Message) : PortWork s (s.raiseStoreNotice m) := by
  simp only [State.raiseStoreNotice]
  split
  · rename_i room
    simp only [Bool.and_eq_true] at room
    exact ⟨portsHold_pushMessage m room.1, rfl, rfl⟩
  · exact .of_ports rfl rfl rfl

theorem portWork_setStore (x : Store) : PortWork s (s.setStore x) := .of_ports rfl rfl rfl

theorem portWork_skipLaunched : PortWork s s.skipLaunched := by
  simp only [State.skipLaunched]
  split
  · exact (portWork_setStore _).trans (portWork_raiseStoreNotice _)
  all_goals exact .refl

theorem portWork_complete (op : StoreOp) (r : OpResult) : PortWork s (s.complete op r) := by
  refine PortWork.trans (t := { s with array := r.array, active := r.active }) (.of_ports rfl rfl rfl) ?_
  simp only [State.complete, State.finishOp]
  split
  · exact ((portWork_setStore _).trans (portWork_raiseStoreNotice _)).trans portWork_skipLaunched
  · exact ((portWork_setStore _).trans (portWork_raiseStoreNotice _)).trans (portWork_setStore _)

theorem portWork_deliverHeldOne (h : s.deliverHeldOne = some t) : PortWork s t := by
  simp only [State.deliverHeldOne] at h
  split at h
  · rename_i room
    split at h
    · obtain rfl := Option.some.inj h
      exact PortWork.trans ⟨portsHold_pushMessage _ room, rfl, rfl⟩ (portWork_setStore _)
    · obtain ⟨r, -, rfl⟩ := Option.map_eq_some_iff.1 h
      exact PortWork.trans ⟨portsHold_pushMessage _ room, rfl, rfl⟩ (.of_ports rfl rfl rfl)
  · simp at h

theorem portWork_deliverHeld (fuel : Nat) (s : State) : PortWork s (State.deliverHeld fuel s) := by
  induction fuel generalizing s with
  | zero => exact .refl
  | succ n ih =>
    simp only [State.deliverHeld]
    split
    · exact .refl
    · rename_i one
      exact (portWork_deliverHeldOne one).trans (ih _)

theorem part_of_runningOp {op : StoreOp} (h : s.runningOp = some op) : s.part ≠ .starting := by
  simp only [State.runningOp] at h
  split at h
  · rename_i hs
    exact part_of_serving hs
  · simp at h

/-- Every completion runs outside STARTING, and ends the same way. -/
theorem portTo_storeComplete :
    (∀ q, PortTo s (execProgramEntryComplete q s)) ∧ (∀ q, PortTo s (execErasePageComplete q s))
      ∧ (∀ q, PortTo s (execEraseDirectoryComplete q s)) ∧ PortTo s (execBlankCheckComplete s)
      ∧ PortTo s (execScanCrcComplete s) ∧ ∀ q, PortTo s (execWriteSettingsComplete q s) := by
  refine ⟨fun q => ?_, fun q => ?_, fun q => ?_, ?_, ?_, fun q => ?_⟩
  all_goals
    simp only [execProgramEntryComplete, execErasePageComplete, execEraseDirectoryComplete, execBlankCheckComplete,
      execScanCrcComplete, execWriteSettingsComplete]
    split
    · rename_i running
      exact (portWork_complete _ _).portTo (part_of_runningOp running)
    · exact portTo_self

/-! ### Supply, RESET# and start-up (R100, R148, R149, R154) -/

theorem portLaw_startUpBegin (s : State) : portLaw s.startUpBegin := by
  refine portLaw_of_empty rfl rfl rfl (fun p => ?_) fun p => ?_
  · simp [State.port, State.startUpBegin, vmap_get, PortUnit.atStartUp]
  · simp only [State.side, State.startUpBegin, vmap_get]

theorem portTo_powerOn : PortTo s (execPowerOn s) := by
  simp only [execPowerOn]
  split
  · exact portTo_self
  · refine portTo_next ?_
    split
    · exact portLaw_congr rfl rfl rfl rfl rfl rfl
    · exact fun _ => portLaw_startUpBegin _

theorem portTo_resetAssert (done : Quirks) : PortTo s (execResetAssert done s) := by
  simp only [execResetAssert]
  split
  · exact portTo_self
  · refine portTo_next ?_
    simp only [portLaw, startLaw, queueLaw, reservedLaw, State.port, State.side, vmap_get, PortUnit.taken,
      PortUnit.notices]
    exact id

theorem portTo_resetRelease : PortTo s (execResetRelease s) := by
  simp only [execResetRelease]
  split
  · refine portTo_next ?_
    split
    · exact fun _ => portLaw_startUpBegin _
    · exact portLaw_congr rfl rfl rfl rfl rfl rfl
  · exact portTo_self

theorem portTo_powerLoss (done : Quirks) : PortTo s (execPowerLoss done s) := by
  simp only [execPowerLoss]
  split
  · refine portTo_next fun _ => portLaw_of_empty rfl rfl rfl (fun p => ?_) fun p => ?_
    · have unit := State.reset_port p
      exact ⟨congrArg PortUnit.queue unit, congrArg PortUnit.reserved unit, congrArg PortUnit.fifo unit⟩
    · exact congrArg ClientSide.owed (State.reset_side p)
  · exact portTo_self

theorem portTo_restart (done : Quirks) : PortTo s (execRestart done s) := by
  refine portTo_next ?_
  split
  · rename_i hs
    split
    · rename_i he
      split
      · split
        · exact fun _ => portLaw_startUpBegin _
        · exact portLaw_answer hs he rfl .refl
      · exact id
    · exact id
    · exact id
  · exact id

theorem portTo_initHeaderComplete (phys : Quirks) : PortTo s (execInitHeaderComplete phys s) := by
  simp only [execInitHeaderComplete]
  split
  · rename_i running
    refine portTo_next ?_
    split
    · exact fun _ => portLaw_startUpBegin _
    · exact (portWork_complete _ _).portLaw (part_of_runningOp running)
  · exact portTo_self

/-- A start-up ends in READY, SPENT or FAULTED (R154). -/
theorem startUpFound_part (m : List Host.Cell) (run : StartUpRun) : (startUpFound m run).part ≠ .starting := by
  simp only [startUpFound]
  split
  · simp [noHeader]
  · simp only [startUpWork]
    split
    · simp [noHeader]
    · split
      · simp
      · split <;> simp

theorem State.load_part (r : StartResult) : (s.load r).part = r.part ∧ (s.load r).engine = s.engine := by
  simp [State.load, allClientPorts]

/-- A start-up that completes flags every port RESTARTED, and queues START_REPORT on port S (R154). -/
theorem State.port_load (r : StartResult) (p : PortId) : (s.load r).port p =
    if p = .sup then { s.port .sup with restarted := true, queue := (s.port .sup).queue ++ [r.report] }
    else { s.port p with restarted := true } := by
  simp only [State.load, allClientPorts, List.foldl_cons, List.foldl_nil, State.port_pushMessage, State.setSide_port]
  simp only [State.port, vmap_get]

theorem portTo_startUpComplete (run : StartUpRun) : PortTo s (execStartUpComplete run s) := by
  refine portTo_next ?_
  split
  · rename_i starts
    simp only [Bool.and_eq_true, decide_eq_true_eq] at starts
    rintro ⟨start, queues, -⟩
    obtain ⟨engine, -, -, ports, -⟩ := start starts.2
    obtain ⟨part, keeps⟩ := s.load_part (startUpFound s.array run)
    refine ⟨fun starting => absurd (part ▸ starting) (startUpFound_part _ _), queueLaw_iff.2 fun p => ?_, ?_⟩
    · obtain ⟨queue, reserved⟩ := ports p
      obtain ⟨⟨taken, notices⟩, fifo⟩ := queueLaw_iff.1 queues p
      rw [State.port_load]
      split
      · rename_i e
        subst e
        refine ⟨⟨?_, ?_⟩, fifo⟩
        · simp [PortUnit.taken, queue, reserved, portDepth, Config.supDepth]
        · simp [PortUnit.notices, queue, noticeLimit, Config.supNotices, StartResult.report, supNotice]
      · exact ⟨⟨taken, notices⟩, fifo⟩
    · simp only [reservedLaw, keeps, engine]
  · exact id

/-! ### Transactions (R101 to R105) -/

/-- A port unit changed so that a start-up's emptiness stays. -/
theorem portLaw_setPort {p : PortId} {u : PortUnit} (hl : (s.port p).lawful p → u.lawful p)
    (hq : (s.port p).queue = [] → u.queue = []) (hr : u.reserved = (s.port p).reserved) :
    portLaw s → portLaw (s.setPort p u) := by
  rintro ⟨start, queues, reserved⟩
  have hold := portsHold_setPort hl hr
  refine ⟨fun starting => ?_, queueLaw_iff.2 fun q => hold.lawful q (queueLaw_iff.1 queues q), ?_⟩
  · obtain ⟨engine, held, activations, ports, owed⟩ := start starting
    refine ⟨engine, held, activations, fun q => ⟨?_, (hold.reserved q).trans (ports q).2⟩, owed⟩
    rw [State.port_setPort]
    split
    · exact hq (ports p).1
    · exact (ports q).1
  · simp only [reservedLaw, State.setPort_engine, hold.reserved] at reserved ⊢
    exact reserved

/-- A unit whose FIFO, queue and reservation are as they were. -/
theorem portLaw_setPort_same {p : PortId} {u : PortUnit} (hf : u.fifo = (s.port p).fifo)
    (hq : u.queue = (s.port p).queue) (hr : u.reserved = (s.port p).reserved) : portLaw s → portLaw (s.setPort p u) :=
  portLaw_setPort (PortUnit.lawful_of_sublist (hq ▸ .refl _) hr (hf ▸ le_rfl)) (hq ▸ id) hr

/-- Notices that waited for the room of a port follow; while a start-up lasts none waits (R104, R100). -/
theorem portLaw_deliverTo (p : PortId) (law : portLaw s) : portLaw (s.deliverTo p) := by
  by_cases hs : s.part = .starting
  · obtain ⟨-, held, activations, -, owed⟩ := law.1 hs
    cases p with
    | client q => simpa [State.deliverTo, State.deliverAllOwed, owed, State.deliverOwed] using law
    | sup => simpa [State.deliverTo, State.deliverAllHeld, State.heldNotices, held, activations,
      State.deliverHeld] using law
  · cases p with
    | client q => exact (PortWork.of_grow (steady_deliverAllOwed s q) (ports_deliverAllOwed s q)).portLaw hs law
    | sup => exact (portWork_deliverHeld _ s).portLaw hs law

theorem portLaw_beginTransfer (p : PortId) (k : TransKind) : portLaw s → portLaw (s.beginTransfer p k) := by
  simp only [State.beginTransfer]
  split
  · exact portLaw_setPort_same rfl rfl rfl
  · exact id

theorem portLaw_reportTransfer (p : PortId) (k : TransKind) : portLaw s → portLaw (s.reportTransfer p k) := by
  obtain ⟨fifo, queue, reserved, -⟩ := PortUnit.report_rest (s.port p)
  simp only [State.reportTransfer]
  split
  · exact portLaw_setPort_same fifo queue reserved
  · exact id

theorem portLaw_fixTransfer (p : PortId) (k : TransKind) : portLaw s → portLaw (s.fixTransfer p k) := by
  obtain ⟨fifo, queue, reserved, -⟩ := PortUnit.report_rest (s.port p)
  simp only [State.fixTransfer]
  split
  · exact portLaw_setPort_same fifo queue reserved
  · exact id

/-- A transaction at any of its moments, with what its rising edge does. -/
theorem portLaw_transact {p : PortId} {k : TransKind} {e : Edge} {bits : Nat} {ending : State → State}
    (h : ∀ t, portLaw t → portLaw (ending t)) (law : portLaw s) : portLaw (s.transact p k e bits ending) := by
  have ends (t : State) (lawT : portLaw t) : portLaw (t.endTransfer p k bits ending) := by
    simp only [State.endTransfer]
    split
    · split
      · split
        · exact h _ (portLaw_fixTransfer p k lawT)
        · exact h _ (portLaw_reportTransfer p k lawT)
      · exact portLaw_setPort_same rfl rfl rfl lawT
    · exact lawT
  cases e with
  | begins => exact portLaw_beginTransfer p k law
  | reports => exact portLaw_reportTransfer p k law
  | fixes => exact portLaw_fixTransfer p k law
  | ends => exact ends s law
  | whole =>
    simp only [State.transact]
    split
    · exact ends _ (portLaw_beginTransfer p k law)
    · exact law

/-- A frame is accepted where the FIFO has a free place (R103, check 4). -/
theorem PortUnit.lawful_take {p : PortId} {u : PortUnit} (part : PartState) (sent : List Byte) (h : u.lawful p) :
    (u.take (u.fate part sent)).lawful p := by
  simp only [PortUnit.fate]
  split
  · exact h
  · split
    · exact h
    · split
      · exact h
      · rename_i free
        obtain ⟨fits, -⟩ := h
        refine ⟨fits, ?_⟩
        simp only [Config.fifoDepth] at free
        simp only [PortUnit.take, List.length_append, List.length_singleton]
        omega

theorem portLaw_finishWrite (p : PortId) (sent : List Byte) (t : State) :
    portLaw t → portLaw (t.finishWrite p sent) := by
  have kept (u : PortUnit) (x : FrameFate) : (u.take x).queue = u.queue ∧ (u.take x).reserved = u.reserved := by
    cases x <;> exact ⟨rfl, rfl⟩
  simp only [State.finishWrite]
  split
  · exact portLaw_setPort (PortUnit.lawful_take t.part sent) (fun e => (kept _ _).1.trans e) (kept _ _).2
  · exact id

theorem portLaw_finishRead (p : PortId) (bits : Nat) (t : State) : portLaw t → portLaw (t.finishRead p bits) := by
  simp only [State.finishRead]
  split
  · rename_i x _
    have finish : portLaw t → portLaw (t.setPort p ((t.port p).finish x (readPayload x.sending) (bits / 8))) :=
      portLaw_setPort_same rfl rfl rfl
    split
    · split
      · refine fun law => portLaw_deliverTo p (portLaw_setPort ?_ (fun e => ?_) rfl (finish law))
        · exact PortUnit.lawful_of_sublist (List.tail_sublist _) rfl le_rfl
        · exact congrArg List.tail e
      · exact finish
    · exact finish
  · exact id

theorem portLaw_finishPlain (p : PortId) (bits : Nat) (t : State) : portLaw t → portLaw (t.finishPlain p bits) := by
  simp only [State.finishPlain]
  split
  · exact portLaw_setPort_same rfl rfl rfl
  · exact id

/-! ### Ticks, what they end, and the grant rule's parts -/

theorem portTo_leaseExpiry (i : SlotNo) : PortTo s (execLeaseExpiry i s) := by
  simp only [execLeaseExpiry]
  split
  · exact portTo_self
  · split
    · rename_i due
      simp only [Bool.and_eq_true] at due
      exact (PortWork.of_grow (by simp) ((ports_endLease s _ i).trans (ports_grantRule _ _))).portTo
        (part_of_counting due.1)
    · exact portTo_self

theorem portTo_graceEnd (i : SlotNo) : PortTo s (execGraceEnd i s) := by
  simp only [execGraceEnd]
  split
  · exact portTo_self
  · split
    · rename_i due
      simp only [Bool.and_eq_true] at due
      exact (PortWork.of_grow (by simp) ((ports_endLease s _ i).trans (ports_grantRule _ _))).portTo
        (part_of_counting due.1)
    · exact portTo_self

theorem portTo_waitTimeout (j : WaitNo) : PortTo s (execWaitTimeout j s) := by
  simp only [execWaitTimeout]
  split
  · exact portTo_self
  · split
    · rename_i due
      simp only [Bool.and_eq_true] at due
      exact (PortWork.of_grow (by simp) ((ports_endWait s _ j).trans (ports_grantRule _ _))).portTo
        (part_of_counting due.1)
    · exact portTo_self

theorem portTo_upgradeTimeout (n : ResNo) : PortTo s (execUpgradeTimeout n s) := by
  simp only [execUpgradeTimeout]
  split
  · rename_i due
    simp only [Bool.and_eq_true] at due
    exact (PortWork.of_grow (by simp) ((ports_endUpgrade s n _).trans (ports_grantRule _ _))).portTo
      (part_of_counting due.1)
  · exact portTo_self

/-- The grant rule is past its first step only outside STARTING. -/
theorem part_of_serves {n : ResNo} (h : s.serves n = true) : s.part ≠ .starting := by
  simp only [State.serves, Bool.and_eq_true] at h
  exact part_of_serving h.1

theorem portTo_grantFromQueue (n : ResNo) : PortTo s (execGrantFromQueue n s) := by
  refine portTo_ite part_of_serves ?_
  cases granted : s.grantHead? n with
  | none => exact .refl
  | some t => exact .of_grow (steady_grantHead granted) (ports_grantHead granted)

theorem portTo_activationApplication (n : ResNo) : PortTo s (execActivationApplication n s) := by
  simp only [execActivationApplication]
  split
  · rename_i due
    simp only [Bool.and_eq_true] at due
    split
    · exact (PortWork.of_grow (by simp) (ports_applyPending s n _)).portTo (part_of_serving due.1.1)
    · exact portTo_self
  · exact portTo_self

theorem part_of_dueTick {k : Nat} (h : (s.counting && decide (0 < k)) = true) : s.part ≠ .starting := by
  simp only [Bool.and_eq_true] at h
  exact part_of_counting h.1

theorem portTo_leaseTableTick : PortTo s (execLeaseTableTick s) :=
  portTo_ite part_of_dueTick <| PortWork.trans (t := { s with leaseTicks := s.leaseTicks - 1 }) (.of_ports rfl rfl rfl)
    (.of_grow (steady_leaseTick _) (ports_leaseTick _))

theorem portTo_waitPoolTick (order : List WaitNo) : PortTo s (execWaitPoolTick order s) :=
  portTo_ite part_of_dueTick <| PortWork.trans (t := { s with waitTicks := s.waitTicks - 1 }) (.of_ports rfl rfl rfl)
    (.of_grow (steady_waitTick _ order) (ports_waitTick _ order))

theorem portTo_pendingUpgradesTick (order : List ResNo) : PortTo s (execPendingUpgradesTick order s) :=
  portTo_ite part_of_dueTick <| PortWork.trans (t := { s with upgradeTicks := s.upgradeTicks - 1 })
    (.of_ports rfl rfl rfl) (.of_grow (steady_upgradeTick _ order) (ports_upgradeTick _ order))

/-! ### Every command -/

/-- Every command keeps the port law. -/
theorem portTo_exec (c : Instr) (s : State) : PortTo s (exec c s) := by
  obtain ⟨program, page, directory, blankCheck, scanCrc, settings⟩ := portTo_storeComplete (s := s)
  cases c with
  | powerOn => exact portTo_powerOn
  | resetAssert done => exact portTo_resetAssert done
  | resetRelease => exact portTo_resetRelease
  | powerLoss done => exact portTo_powerLoss done
  | startUpComplete run => exact portTo_startUpComplete run
  | writeTransaction p e sent => exact portTo_next (portLaw_transact (portLaw_finishWrite p sent))
  | readTransaction p e bits => exact portTo_next (portLaw_transact (portLaw_finishRead p bits))
  | statusTransaction p e bits => exact portTo_next (portLaw_transact (portLaw_finishPlain p bits))
  | unknownKindTransaction p e kind bits => exact portTo_next (portLaw_transact (portLaw_finishPlain p bits))
  | unknownRequestKind => exact portTo_unknownRequestKind
  | acquire => exact portTo_clientGrow untouched_acquire ports_acquire
  | cancelWait => exact portTo_clientGrow untouched_cancelWait ports_cancelWait
  | release => exact portTo_clientGrow untouched_release ports_release
  | renew => exact portTo_clientGrow untouched_renew ports_renew
  | upgrade => exact portTo_clientGrow untouched_upgrade ports_upgrade
  | cancelUpgrade => exact portTo_clientGrow untouched_cancelUpgrade ports_cancelUpgrade
  | downgrade => exact portTo_clientGrow untouched_downgrade ports_downgrade
  | verify => exact portTo_clientGrow (fun c f => .of_eq (state_verify c f)) fun c f => .of_ports (by rw [state_verify])
  | queryResource => exact portTo_clientGrow (fun _ _ => .refl) fun _ _ => .rfl
  | queryLease =>
    exact portTo_clientGrow (fun c f => .of_eq (state_queryLease c f)) fun c f => .of_ports (by rw [state_queryLease])
  | listMine => exact portTo_clientGrow (fun _ _ => .refl) fun _ _ => .rfl
  | detach => exact portTo_client (fun c _ => (untouched_detach c).part) fun c _ => portsHold_detach c
  | resetPort => exact portTo_client (fun c _ => (framed_resetPort c.port).part) fun c _ => portsHold_resetPort c.port
  | status => exact portTo_supQuiet fun _ => ⟨rfl, rfl⟩
  | readLease =>
    exact portTo_supGrow untouched_readLease fun f => by
      simp only [readLeaseDecision]
      split <;> exact .rfl
  | readResource => exact portTo_supQuiet fun _ => ⟨rfl, rfl⟩
  | readQueue =>
    exact portTo_supGrow untouched_readQueue fun f => by
      simp only [readQueueDecision]
      split <;> exact .rfl
  | readWait => exact portTo_supGrow untouched_readWait fun f => by simp only [readWaitDecision]; split <;> exact .rfl
  | revoke => exact portTo_supGrow untouched_revoke ports_revoke
  | revokeResource => exact portTo_supGrow untouched_revokeResource ports_revokeResource
  | purgeClient => exact portTo_supGrow untouched_purgeClient ports_purgeClient
  | setTimebase => exact portTo_supQuiet State.setTimebase_quiet
  | activate => exact portTo_supGrow untouched_activate ports_activate
  | cancelActivation => exact portTo_supGrow untouched_cancelActivation ports_cancelActivation
  | storeStageProgramEntry => exact portTo_stageRequest
  | storeStageErasePage => exact portTo_stageRequest
  | storeStageEraseDirectory => exact portTo_stageRequest
  | storeStageBlankCheck => exact portTo_stageRequest
  | storeStageScanCrc => exact portTo_stageRequest
  | storeStageWriteSettings => exact portTo_stageRequest
  | storeStageInitHeader => exact portTo_stageRequest
  | storeLaunch => exact portTo_supQuiet State.storeLaunch_quiet
  | storeDiscard => exact portTo_supQuiet State.storeDiscard_quiet
  | storeClear => exact portTo_supQuiet fun _ => ⟨rfl, rfl⟩
  | storeRead => exact portTo_supQuiet State.storeRead_quiet
  | restart done => exact portTo_restart done
  | tick periods => exact portTo_ite part_of_counting (.of_ports rfl rfl rfl)
  | leaseTableTick => exact portTo_leaseTableTick
  | waitPoolTick order => exact portTo_waitPoolTick order
  | pendingUpgradesTick order => exact portTo_pendingUpgradesTick order
  | leaseExpiry i => exact portTo_leaseExpiry i
  | graceEnd i => exact portTo_graceEnd i
  | waitTimeout j => exact portTo_waitTimeout j
  | upgradeTimeout n => exact portTo_upgradeTimeout n
  | grantFromQueue n => exact portTo_grantFromQueue n
  | upgradeGrant n => exact portTo_ite part_of_serves (.of_grow (by simp) (ports_serveUpgrade s n))
  | activationApplication n => exact portTo_activationApplication n
  | owedNoticeDelivery p => exact portTo_ite part_of_serving (.of_grow (by simp) (ports_deliverAllOwed s p))
  | heldNoticeDelivery => exact portTo_ite part_of_serving (portWork_deliverHeld _ s)
  | dispatch => exact portTo_dispatch
  | programEntryComplete phys => exact program phys
  | erasePageComplete phys => exact page phys
  | eraseDirectoryComplete phys => exact directory phys
  | blankCheckComplete => exact blankCheck
  | scanCrcComplete => exact scanCrc
  | writeSettingsComplete phys => exact settings phys
  | initHeaderComplete phys => exact portTo_initHeaderComplete phys
  | launchedCommandStart => exact portTo_ite part_of_serving (portWork_setStore _)

/-- Settles O6: a step takes the front command from the queue and carries it out. -/
theorem portLawKept : Obligations.PortLawKept := by
  intro s t law h
  simp only [step] at h
  split at h
  · exact portTo_self t h law
  · rename_i c rest _
    exact portTo_exec c { s with pending := rest } t h (portLaw_congr rfl rfl rfl rfl rfl rfl law)

end Sys2Proof.Machine
end

section
/-! PROOFS. The dispatcher, and the responses: the fields echoed from the frame, and the frame of unknown kind (R108,
R109, R157). -/

namespace Sys2Proof.Machine

variable {s : State}

/-! ### The dispatcher (R108) -/

theorem State.eligible_iff {p : PortId} :
    s.eligible p = true ↔ (s.port p).fifo ≠ [] ∧ (s.port p).taken < portDepth p := by
  simp [State.eligible]

/-- The port taken is the first eligible one of the cyclic order. -/
theorem State.nextPort_first {before after : List PortId} {p : PortId}
    (order : portsAfter s.rotation = before ++ p :: after) (none : ∀ q ∈ before, s.eligible q = false)
    (eligible : s.eligible p = true) : s.nextPort = some p := by
  rw [State.nextPort, order, List.find?_append, List.find?_eq_none.2 fun q hq => by simp [none q hq]]
  simp [eligible]

theorem execDispatch_none (waits : ∀ p, s.eligible p = false) : execDispatch s = .next s := by
  have next : s.nextPort = none := List.find?_eq_none.2 fun q _ => by simp [waits q]
  simp [execDispatch, next]

theorem execDispatch_takes {p : PortId} {f : Frame} {rest : List Frame} (serving : s.serving = true)
    (free : s.engine = none) (next : s.nextPort = some p) (fifo : (s.port p).fifo = f :: rest) :
    execDispatch s = .next (s.takeFrame p f) := by
  simp [execDispatch, serving, free, next, fifo]

theorem State.port_takeFrame (p q : PortId) (f : Frame) : (s.takeFrame p f).port q =
    if q = p then { s.port p with fifo := (s.port p).fifo.tail, reserved := true } else s.port q :=
  State.port_setPort s p q _

/-- Settles O25: the search of the cyclic order, and what taking a frame changes. -/
theorem dispatchTakesNextEligible : Obligations.DispatchTakesNextEligible := by
  refine ⟨fun s p => ?_, fun s serving free => ⟨fun waits => execDispatch_none waits, ?_⟩⟩
  · rw [State.eligible_iff]
    cases p <;> rfl
  · intro before after p f rest order none eligible fifo
    refine ⟨_, execDispatch_takes serving free (State.nextPort_first order none eligible) fifo, rfl, rfl, ?_,
      fun q hq => ?_, rfl, rfl, rfl, rfl⟩
    · rw [State.port_takeFrame, if_pos rfl, fifo, List.tail_cons]
    · rw [State.port_takeFrame, if_neg hq]

/-! ### The fields a response echoes (R157; log 15) -/

theorem padTo_nil (n : Nat) : padTo n [] = List.replicate n 0x00#8 := by
  induction n with
  | zero => rfl
  | succ n ih => rw [padTo, ih, List.replicate_succ]

/-- A field that the bytes hold is copied. -/
theorem echoFields_cons_of_le {w : Nat} {bs : List Byte} (ws : List Nat) (h : w ≤ bs.length) :
    echoFields (w :: ws) bs = bs.take w ++ echoFields ws (bs.drop w) := by
  rw [echoFields, if_pos h]

/-- A field that the bytes end within is cleared whole; one of no width is empty either way. -/
theorem echoFields_cons_of_short {w : Nat} {bs : List Byte} (ws : List Nat) (h : bs.length < w ∨ bs.length = 0) :
    echoFields (w :: ws) bs = List.replicate w 0x00#8 ++ echoFields ws (bs.drop w) := by
  rw [echoFields]
  split
  · rename_i fits
    obtain rfl : w = 0 := by omega
    rfl
  · rw [padTo_nil]

/-- A single field, from byte 4 on. -/
theorem echoFields_one (w : Nat) (f : Frame) :
    (4 + w ≤ f.length → echoFields [w] (f.drop 4) = (f.drop 4).take w)
      ∧ (f.length < 4 + w → echoFields [w] (f.drop 4) = List.replicate w 0x00#8) := by
  have length : (f.drop 4).length = f.length - 4 := List.length_drop
  refine ⟨fun h => ?_, fun h => ?_⟩
  · rw [echoFields_cons_of_le [] (by omega), echoFields, List.append_nil]
  · rw [echoFields_cons_of_short [] (by omega), echoFields, List.append_nil]

/-- Two fields, one after the other, from byte 4 on. -/
theorem echoFields_two (w x : Nat) (f : Frame) :
    (4 + w + x ≤ f.length → echoFields [w, x] (f.drop 4) = (f.drop 4).take (w + x))
      ∧ (4 + w ≤ f.length → f.length < 4 + w + x →
          echoFields [w, x] (f.drop 4) = (f.drop 4).take w ++ List.replicate x 0x00#8)
      ∧ (f.length < 4 + w → echoFields [w, x] (f.drop 4) = List.replicate (w + x) 0x00#8) := by
  have length : (f.drop 4).length = f.length - 4 := List.length_drop
  have rest : ((f.drop 4).drop w).length = f.length - 4 - w := by rw [List.length_drop, length]
  refine ⟨fun h => ?_, fun first h => ?_, fun h => ?_⟩
  · exact (echoFields_of_le (by simp only [List.sum_cons, List.sum_nil]; omega)).trans (by simp)
  · rw [echoFields_cons_of_le _ (by omega), echoFields_cons_of_short [] (by omega), echoFields, List.append_nil]
  · rw [echoFields_cons_of_short _ (by omega), echoFields_cons_of_short [] (by omega), echoFields, List.append_nil,
      List.replicate_append_replicate]

/-- The status of the answer to a frame of unknown kind: PART_FAULTED on a client port in FAULTED, else BAD_REQUEST. -/
theorem unknownKindStatus_code (part : PartState) (p : PortId) :
    (p ≠ .sup → part = .faulted → (unknownKindStatus part p).code = 0x11#8)
      ∧ (p = .sup ∨ part ≠ .faulted → (unknownKindStatus part p).code = 0x10#8) := by
  cases p with
  | client p =>
    refine ⟨fun _ faulted => by simp [unknownKindStatus, faulted, Status.code], fun other => ?_⟩
    have started : part ≠ .faulted := other.resolve_left (by simp)
    simp [unknownKindStatus, started, Status.code]
  | sup => exact ⟨fun h => absurd rfl h, fun _ => rfl⟩

/-- Settles O26: the response message, the fields every kind's response carries, and the answer of code FFh. -/
theorem unknownKindAnswered : Obligations.UnknownKindAnswered := by
  refine ⟨fun s k r a => ?_, by decide, fun s r serving engine unknown => ?_⟩
  · refine ⟨responseTo k r a, rfl, rfl, rfl, rfl, fun none => ?_, fun w one => ?_, fun w x two => ?_, rfl⟩
    · simp only [responseTo, none, echoFields, List.nil_append]
    · obtain ⟨whole, short⟩ := echoFields_one w r.frame
      simp only [responseTo, one]
      exact ⟨fun h => by rw [whole h], fun h => by rw [short h]⟩
    · obtain ⟨whole, second, short⟩ := echoFields_two w x r.frame
      simp only [responseTo, two]
      exact ⟨fun h => by rw [whole h], fun first h => by rw [second first h], fun h => by rw [short h]⟩
  · refine ⟨(unknownKindStatus s.part r.port).code, ?_, unknownKindStatus_code s.part r.port⟩
    have runs : (s.serving && !knownKind r.port (byteAt r.frame 0)) = true := by simp [serving, unknown]
    simp only [exec, execUnknownRequestKind, engine]
    exact if_pos runs

end Sys2Proof.Machine
end

section
/-! PROOFS. WRITE transactions: the frames (chapter 11.1), a whole transaction in its moments, and the four checks of
its rising edge (R101, R103). -/

namespace Sys2Proof.Machine

variable {s : State} {p : PortId}

theorem State.port_setPort_self (u : PortUnit) : (s.setPort p u).port p = u := by rw [State.port_setPort, if_pos rfl]

/-! ### Frames (R103, check 2) -/

theorem byteOf_toNat (b : Byte) : byteOf b.toNat = b := by simp [byteOf]

/-- Bytes that pass the checks are a length, as many message bytes, and the CRC-8 of both. -/
theorem frameOf_some {sent : List Byte} {f : Frame} (h : frameOf? sent = some f) :
    4 ≤ f.length ∧ f.length ≤ 48 ∧ sent = byteOf f.length :: (f ++ [crc8 (byteOf f.length :: f)]) := by
  cases sent with
  | nil => simp [frameOf?] at h
  | cons l rest =>
    simp only [frameOf?] at h
    split at h
    · rename_i checks
      obtain ⟨low, high, size, crc⟩ := checks
      obtain rfl := Option.some.inj h
      have length : rest.dropLast.length = l.toNat := by simp [size]
      obtain ⟨whole, e⟩ := List.getLast?_eq_some_iff.1 crc
      have dropped : rest.dropLast = whole := by rw [e, List.dropLast_concat]
      rw [length, byteOf_toNat]
      exact ⟨low, high, by rw [← dropped] at e; exact congrArg _ e⟩
    · simp at h

/-- Bytes of that form pass them. -/
theorem frameOf_of_form {f : Frame} (low : 4 ≤ f.length) (high : f.length ≤ 48) :
    frameOf? (byteOf f.length :: (f ++ [crc8 (byteOf f.length :: f)])) = some f := by
  have length : (byteOf f.length).toNat = f.length := toNat_byteOf (by omega)
  simp [frameOf?, length, low, high]

/-! ### A whole transaction in its moments (R101, R102, R104; log 9) -/

/-- The transaction record of the falling edge. -/
def captured (part : PartState) (k : TransKind) (u : PortUnit) : Transfer :=
  { kind := k, word1 := statusByte1 part u, word2 := statusByte2 u, reported := false, fixed := false, sending := none,
    headStill := true }

theorem PortUnit.begin_eq (part : PartState) (k : TransKind) (u : PortUnit) :
    u.begin part k = { u with transfer := some (captured part k u) } := rfl

/-- The falling edge captures the status word, and nothing else (R101). -/
theorem State.transact_begins (alive : s.alive = true) (idle : (s.port p).transfer = none) (k : TransKind) (b : Nat)
    (ending : State → State) :
    s.transact p k .begins b ending = s.setPort p ((s.port p).begin s.part k) := by
  simp [State.transact, State.beginTransfer, alive, idle]

/-- The port unit at the rising edge of a whole transaction after `b` SCK periods, what ended in it reported and
fixed. -/
def PortUnit.atEnd (part : PartState) (k : TransKind) (b : Nat) (u : PortUnit) : PortUnit :=
  if 16 ≤ b then (u.begin part k).report.fix else (u.begin part k).report

/-- A whole transaction of at least 8 SCK periods ends on the unit that has captured, reported and, for a READ,
fixed. -/
theorem State.transact_whole_past (alive : s.alive = true) (idle : (s.port p).transfer = none) (k : TransKind) {b : Nat}
    (past : 8 ≤ b) (ending : State → State) :
    s.transact p k .whole b ending = ending (s.setPort p ((s.port p).atEnd s.part k b)) := by
  have begun : (s.setPort p ((s.port p).begin s.part k)).port p = (s.port p).begin s.part k :=
    State.port_setPort_self _
  have reported : ((s.setPort p ((s.port p).begin s.part k)).setPort p ((s.port p).begin s.part k).report).port p =
      ((s.port p).begin s.part k).report := State.port_setPort_self _
  have first := State.transact_of_unreported (s := s.setPort p ((s.port p).begin s.part k)) (p := p)
    (by simpa using alive) (congrArg PortUnit.transfer begun) rfl b ending
  rw [begun] at first
  obtain ⟨-, -, later, -⟩ := first
  have second := State.transact_of_reported (p := p)
    (s := (s.setPort p ((s.port p).begin s.part k)).setPort p ((s.port p).begin s.part k).report) (by simpa using alive)
    (by rw [reported, PortUnit.report_begin]) rfl b ending
  rw [reported] at second
  obtain ⟨-, -, ends⟩ := second
  rw [State.transact_whole idle, State.transact_begins alive idle]
  refine (later past).trans (ends.trans (congrArg ending ?_))
  simp only [State.setPort_setPort, PortUnit.atEnd]
  split <;> rfl

/-- A unit whose transaction is over is as it was before it began. -/
theorem PortUnit.begin_abandoned {u : PortUnit} (idle : u.transfer = none) (part : PartState) (k : TransKind) :
    { u.begin part k with transfer := none } = u := by
  obtain ⟨_, _, _, _, _, _, _, _⟩ := u
  obtain rfl := idle
  rfl

/-- A whole transaction that ends before its kind byte has no effect (R101). -/
theorem State.transact_whole_early (alive : s.alive = true) (idle : (s.port p).transfer = none) (k : TransKind)
    {b : Nat} (early : b < 8) (ending : State → State) : s.transact p k .whole b ending = s := by
  have begun : (s.setPort p ((s.port p).begin s.part k)).port p = (s.port p).begin s.part k :=
    State.port_setPort_self _
  have first := State.transact_of_unreported (s := s.setPort p ((s.port p).begin s.part k)) (p := p)
    (by simpa using alive) (congrArg PortUnit.transfer begun) rfl b ending
  rw [begun] at first
  obtain ⟨-, -, -, abandoned⟩ := first
  rw [State.transact_whole idle, State.transact_begins alive idle]
  refine (abandoned early).trans ?_
  rw [State.setPort_setPort, PortUnit.begin_abandoned idle, State.setPort_self]

/-- The unit at that moment: every flag cleared, an unknown kind's FRAME_ERROR set, and a READ's message fixed where the
second byte has ended. -/
theorem PortUnit.atEnd_eq (part : PartState) (k : TransKind) (b : Nat) (u : PortUnit) :
    u.atEnd part k b =
      { u with
        overrun := false, restarted := false, frameError := decide (k = .unknown)
        transfer := some
          { captured part k u with
            reported := true, fixed := decide (k = .read ∧ 16 ≤ b)
            sending := if k = .read ∧ 16 ≤ b then u.queue.head? else none } } := by
  simp only [PortUnit.atEnd, PortUnit.report_begin]
  by_cases second : 16 ≤ b
  · by_cases read : k = .read <;> simp [second, read, PortUnit.fix, captured]
  · simp [second, captured]

/-! ### The rising edge of a WRITE (R103) -/

/-- What the four checks leave of a unit. -/
theorem PortUnit.take_kept (u : PortUnit) (x : FrameFate) :
    (u.take x).queue = u.queue ∧ (u.take x).reserved = u.reserved ∧ (u.take x).restarted = u.restarted := by
  cases x <;> exact ⟨rfl, rfl, rfl⟩

/-- The unit with its flags cleared and a transaction in progress. -/
def PortUnit.unflagged (x : Transfer) (u : PortUnit) : PortUnit :=
  { u with overrun := false, frameError := false, restarted := false, transfer := some x }

/-- A whole WRITE: its frame is decided on the unit with its flags cleared. -/
theorem exec_writeTransaction (alive : s.alive = true) (idle : (s.port p).transfer = none) (sent : List Byte) :
    ∃ (x : Transfer) (n : Nat), exec (.writeTransaction p .whole sent) s =
      .next (s.setPort p
        ((((s.port p).unflagged x).take (((s.port p).unflagged x).fate s.part sent)).finish x [] n)) := by
  obtain ⟨x, unit⟩ : ∃ x : Transfer, (s.port p).atEnd s.part .write (kindBits + 8 * sent.length) =
      (s.port p).unflagged x := ⟨_, PortUnit.atEnd_eq _ _ _ _⟩
  refine ⟨x, 1 + sent.length, ?_⟩
  have past : 8 ≤ kindBits + 8 * sent.length := Nat.le_add_right _ _
  have transfer : ((s.port p).unflagged x).transfer = some x := rfl
  simp only [exec, execWriteTransaction, State.transact_whole_past alive idle _ past, State.finishWrite,
    State.port_setPort, if_true, unit, transfer, State.setPort_setPort, State.setPort_part]

/-- Settles O22: the frames, and the checks one after the other. -/
theorem writeDecidedInOrder : Obligations.WriteDecidedInOrder := by
  refine ⟨fun sent f => ⟨frameOf_some, ?_⟩, fun s p sent alive idle => ?_⟩
  · rintro ⟨low, high, rfl⟩
    exact frameOf_of_form low high
  · obtain ⟨x, n, e⟩ := exec_writeTransaction alive idle sent
    obtain ⟨queue, reserved, restarted⟩ := ((s.port p).unflagged x).take_kept
      (((s.port p).unflagged x).fate s.part sent)
    refine ⟨_, _, e, rfl, queue, reserved, restarted, rfl, fun starting => ?_, fun started bad => ?_,
      fun f started good full => ?_, fun f started good free => ?_⟩
    · simp [PortUnit.fate, starting, PortUnit.take, PortUnit.finish, PortUnit.unflagged]
    · simp [PortUnit.fate, started, bad, PortUnit.take, PortUnit.finish, PortUnit.unflagged]
    · simp [PortUnit.fate, started, good, PortUnit.take, PortUnit.finish, PortUnit.unflagged, Config.fifoDepth, full]
    · simp [PortUnit.fate, started, good, PortUnit.take, PortUnit.finish, PortUnit.unflagged, Config.fifoDepth,
        Nat.not_le.2 free]

end Sys2Proof.Machine
end

section
/-! PROOFS. READ transactions: which of them remove the head message, and what the delivery that follows brings in
(R104, R114, R123). -/

namespace Sys2Proof.Machine

variable {s t : State} {p : PortId}

/-! ### The owed notices that enter (R114) -/

/-- A notice withdrawn leaves what the other records owe (R112). -/
theorem State.owesOn_withdraw {q : CPort} {r x : Ref} (other : x ≠ r) (o : CPort) :
    (s.withdraw q r).owesOn o x ↔ s.owesOn o x := by
  have left : (s.leaveOwed q r).owesOn o x ↔ s.owesOn o x := by cases x <;> exact Iff.rfl
  refine Iff.trans ?_ left
  cases r with
  | slot i =>
    obtain ⟨v, e, -⟩ := State.dropOwed_slot (s.leaveOwed q (.slot i)) i
    rw [State.withdraw, e]
    exact State.owesOn_setSlot (s := s.leaveOwed q (.slot i)) other v o
  | wait j =>
    simp only [State.withdraw, State.dropOwed]
    split
    · exact State.owesOn_setWait (s := s.leaveOwed q (.wait j)) other .free o
    all_goals exact Iff.rfl

/-- Every record on the port's owed list owes a notice on it, and stands there once: one port's part of R112. -/
def State.owedListed (s : State) (q : CPort) : Prop := (s.side q).owed.Nodup ∧ ∀ r ∈ (s.side q).owed, s.owesOn q r

theorem owedListed_of_owedLaw (law : owedLaw s) (q : CPort) : s.owedListed q :=
  ⟨(law.1 q).1, fun r => ((law.1 q).2 r).1⟩

/-- The head of the owed list has left: the list is still exact. -/
theorem State.owedListed_withdraw {q : CPort} {r : Ref} {rest : List Ref} (h : (s.side q).owed = r :: rest)
    (listed : s.owedListed q) : ((s.withdraw q r).side q).owed = rest ∧ (s.withdraw q r).owedListed q := by
  obtain ⟨once, owes⟩ := listed
  rw [h] at once owes
  obtain ⟨unlisted, once⟩ := List.nodup_cons.1 once
  have owed : ((s.withdraw q r).side q).owed = rest := by rw [State.owed_withdraw, h, List.erase_cons_head]
  refine ⟨owed, by rwa [owed], fun x hx => ?_⟩
  rw [owed] at hx
  exact (State.owesOn_withdraw (fun e => unlisted (by rwa [← e])) q).2 (owes x (List.mem_cons_of_mem r hx))

theorem State.owedListed_pushMessage {q : CPort} {o : PortId} {m : Message} (h : s.owedListed q) :
    (s.pushMessage o m).owedListed q := by
  refine ⟨h.1, fun x hx => ?_⟩
  have owes := h.2 x hx
  cases x <;> exact owes

theorem State.withdraw_port (q : CPort) (r : Ref) (o : PortId) : (s.withdraw q r).port o = s.port o := by
  rw [State.withdraw]
  cases r <;> simp only [State.dropOwed] <;> split <;> rfl

/-- The owed notices that enter are as many as leave the list's head. -/
theorem State.deliverOwed_entered (fuel : Nat) (q : CPort) (s : State) :
    ∃ ns : List Message, (∀ x ∈ ns, x.isNotice = true)
      ∧ (State.deliverOwed fuel q s).port (.client q) = (s.port (.client q)).grown ns
      ∧ (s.owedListed q → ((State.deliverOwed fuel q s).side q).owed = (s.side q).owed.drop ns.length) := by
  have none (t : State) : t.port (.client q) = (t.port (.client q)).grown [] := by simp [PortUnit.grown]
  induction fuel generalizing s with
  | zero => exact ⟨[], by simp, none s, fun _ => rfl⟩
  | succ n ih =>
    simp only [State.deliverOwed]
    split
    · rename_i owed
      exact ⟨[], by simp, none s, fun _ => by rw [owed]; rfl⟩
    · rename_i r rest owed
      split
      · rename_i room
        rw [State.setSide_tail owed]
        obtain ⟨ms, notices, grown, -⟩ := ports_deliverRef (s := s.leaveOwed q r) (by simpa using room) r (.client q)
        obtain ⟨ns, more, entered, left⟩ := ih ((s.leaveOwed q r).deliverRef q r)
        refine ⟨ms ++ ns, ?_, ?_, fun listed => ?_⟩
        · simpa [or_imp, forall_and] using And.intro notices more
        · rw [entered, grown, State.leaveOwed_port]
          simp [PortUnit.grown]
        · obtain ⟨tail, still⟩ := State.owedListed_withdraw owed listed
          rcases State.deliverRef_cases s q r with ⟨m, e⟩ | ⟨silent, -⟩
          · have one : ms = [m] := by
              have queues := congrArg PortUnit.queue grown
              rw [e, State.port_pushMessage, if_pos rfl, State.withdraw_port, State.leaveOwed_port] at queues
              exact (List.append_cancel_left queues).symm
            rw [e] at left ⊢
            rw [left (State.owedListed_pushMessage still), State.pushMessage_side, tail, owed, one]
            simp
          · exact absurd (listed.2 r (by rw [owed]; exact List.mem_cons_self)) silent
      · exact ⟨[], by simp, none s, fun _ => rfl⟩

/-! ### The held notices that enter (R123) -/

/-- A held notice that enters port S's queue is the store's, or that of an entry of the activation list. -/
theorem State.deliverHeldOne_entered (h : s.deliverHeldOne = some t) :
    ∃ m : Message, (m.isNotice = true ∨ m ∈ s.store.held) ∧ t.port .sup = (s.port .sup).grown [m]
      ∧ t.store.held ⊆ s.store.held := by
  simp only [State.deliverHeldOne] at h
  split at h
  · split at h
    · rename_i m rest held
      obtain rfl := Option.some.inj h
      refine ⟨m, .inr (by simp [held]), State.port_pushMessage s .sup .sup m, ?_⟩
      simp only [State.store_setStore, Store.startLaunched_held, held]
      exact List.subset_cons_self m rest
    · obtain ⟨r, applied, rfl⟩ := Option.map_eq_some_iff.1 h
      exact ⟨r.1, .inl (takeApplied_isNotice applied), State.port_pushMessage s .sup .sup r.1, List.Subset.refl _⟩
  · simp at h

theorem State.deliverHeld_entered (fuel : Nat) (s : State) :
    ∃ ns : List Message, (∀ x ∈ ns, x.isNotice = true ∨ x ∈ s.store.held)
      ∧ (State.deliverHeld fuel s).port .sup = (s.port .sup).grown ns := by
  induction fuel generalizing s with
  | zero => exact ⟨[], by simp, by simp [State.deliverHeld, PortUnit.grown]⟩
  | succ n ih =>
    simp only [State.deliverHeld]
    split
    · exact ⟨[], by simp, by simp [PortUnit.grown]⟩
    · rename_i t one
      obtain ⟨m, source, first, fewer⟩ := State.deliverHeldOne_entered one
      obtain ⟨ns, sources, rest⟩ := ih t
      refine ⟨m :: ns, ?_, by simp [rest, first, PortUnit.grown]⟩
      exact List.forall_mem_cons.2 ⟨source, fun x hx => (sources x hx).imp_right fun held => fewer held⟩

/-! ### What follows the room of a port (R104) -/

/-- The delivery that follows lets notices enter the tail of the port's queue, and changes nothing else of its unit. -/
theorem State.deliverTo_entered (s : State) (p : PortId) :
    ∃ ns : List Message, (∀ x ∈ ns, x.isNotice = true ∨ x ∈ s.store.held)
      ∧ (s.deliverTo p).port p = (s.port p).grown ns
      ∧ ∀ q : CPort, p = .client q → s.owedListed q →
          ((s.deliverTo p).side q).owed = (s.side q).owed.drop ns.length := by
  cases p with
  | client q =>
    obtain ⟨ns, notices, grown, left⟩ := State.deliverOwed_entered (s.side q).owed.length q s
    refine ⟨ns, fun x hx => .inl (notices x hx), grown, fun o e => ?_⟩
    obtain rfl : q = o := by simpa using e
    exact left
  | sup =>
    obtain ⟨ns, sources, grown⟩ := State.deliverHeld_entered s.heldNotices s
    exact ⟨ns, sources, grown, fun o e => by simp at e⟩

/-- It leaves no notice of the port waiting where there is room. -/
theorem State.deliverTo_leaves_none (s : State) (p : PortId) :
    (p = .sup → (s.deliverTo p).heldNotices = 0 ∨ (s.deliverTo p).supRoom = false)
      ∧ ∀ q : CPort, p = .client q →
          ((s.deliverTo p).side q).owed = [] ∨ ((s.deliverTo p).port p).room p = false := by
  refine ⟨?_, ?_⟩
  · rintro rfl
    exact State.heldServed_deliverAllHeld
  · rintro q rfl
    exact State.served_deliverAllOwed q

/-- The delivery row does the same as an event of its own (log 12). -/
theorem exec_deliveryRow (p : PortId) (s : State) :
    exec (deliveryRow p) s = .next (if s.serving then s.deliverTo p else s) := by
  cases p <;> rfl

/-! ### The rising edge of a READ (R104) -/

theorem readPayload_some (m : Message) :
    readPayload (some m) = byteOf m.bytes.length :: (m.bytes ++ [crc8 (byteOf m.bytes.length :: m.bytes)]) := rfl

theorem readComplete_iff {m : Message} {bits : Nat} : readComplete m bits = true ↔ 8 * (m.bytes.length + 4) ≤ bits := by
  simp only [readComplete, readPayload_some, decide_eq_true_eq, List.length_cons, List.length_append, List.length_nil]
  omega

/-- The unit as a READ leaves it, with what it has shifted out. -/
def PortUnit.readDone (x : Transfer) (bits : Nat) (u : PortUnit) : PortUnit :=
  u.finish x (readPayload x.sending) (bits / 8)

/-- A READ of no message, of one that is no longer the head, or cut short, removes nothing. -/
theorem State.finishRead_keeps {x : Transfer} {bits : Nat} (hx : (s.port p).transfer = some x)
    (h : ∀ m, x.sending = some m → x.headStill = true → bits < 8 * (m.bytes.length + 4)) :
    s.finishRead p bits = s.setPort p ((s.port p).readDone x bits) := by
  simp only [State.finishRead, hx]
  split
  · rename_i m sending
    split
    · rename_i removes
      simp only [Bool.and_eq_true, readComplete_iff] at removes
      exact absurd (h m sending removes.1) (Nat.not_lt.2 removes.2)
    · rfl
  · rfl

/-- A READ clocked to the end of the CRC-8 of the head message removes it, and what waited for the room enters. -/
theorem State.finishRead_removes {x : Transfer} {bits : Nat} {m : Message} (hx : (s.port p).transfer = some x)
    (sending : x.sending = some m) (head : x.headStill = true) (complete : 8 * (m.bytes.length + 4) ≤ bits) :
    s.finishRead p bits =
      (s.setPort p { (s.port p).readDone x bits with queue := (s.port p).queue.tail }).deliverTo p := by
  have removes : (x.headStill && readComplete m bits) = true := by simp [head, readComplete_iff.2 complete]
  simp only [State.finishRead, hx]
  split
  · rename_i m' sending'
    obtain rfl := Option.some.inj (sending.symm.trans sending')
    rw [if_pos removes, State.setPort_setPort, State.port_setPort_self]
    rfl
  · rename_i none
    simp [none] at sending

/-! ### A whole READ -/

/-- The transaction record of a whole READ at its rising edge. -/
def readTransfer (part : PartState) (bits : Nat) (u : PortUnit) : Transfer :=
  { captured part .read u with
    reported := true, fixed := decide (16 ≤ bits), sending := if 16 ≤ bits then u.queue.head? else none }

theorem PortUnit.atEnd_read (part : PartState) (bits : Nat) (u : PortUnit) :
    u.atEnd part .read bits = u.unflagged (readTransfer part bits u) := by
  rw [PortUnit.atEnd_eq]
  simp [PortUnit.unflagged, readTransfer]

/-- The unit as a whole READ leaves it that removes nothing. -/
def PortUnit.readWhole (part : PartState) (bits : Nat) (u : PortUnit) : PortUnit :=
  (u.unflagged (readTransfer part bits u)).readDone (readTransfer part bits u) bits

theorem exec_readTransaction {bits : Nat} (alive : s.alive = true) (idle : (s.port p).transfer = none)
    (past : 8 ≤ bits) :
    exec (.readTransaction p .whole bits) s =
      .next ((s.setPort p ((s.port p).unflagged (readTransfer s.part bits (s.port p)))).finishRead p bits) := by
  simp only [exec, execReadTransaction, State.transact_whole_past alive idle _ past, PortUnit.atEnd_read]

/-- A whole READ of an empty queue, or cut short, removes nothing. -/
theorem exec_read_keeps {bits : Nat} (alive : s.alive = true) (idle : (s.port p).transfer = none) (past : 8 ≤ bits)
    (short : ∀ m, (s.port p).queue.head? = some m → bits < 8 * (m.bytes.length + 4)) :
    exec (.readTransaction p .whole bits) s = .next (s.setPort p ((s.port p).readWhole s.part bits)) := by
  have unit : (s.setPort p ((s.port p).unflagged (readTransfer s.part bits (s.port p)))).port p =
      (s.port p).unflagged (readTransfer s.part bits (s.port p)) := State.port_setPort_self _
  rw [exec_readTransaction alive idle past,
    State.finishRead_keeps (congrArg PortUnit.transfer unit) fun m sending _ => ?_, unit, State.setPort_setPort]
  · rfl
  · simp only [readTransfer] at sending
    split at sending
    · exact short m sending
    · simp at sending

/-- A whole READ clocked to the end of the CRC-8 of the head message removes it. -/
theorem exec_read_removes {bits : Nat} {m : Message} {rest : List Message} (alive : s.alive = true)
    (idle : (s.port p).transfer = none) (queue : (s.port p).queue = m :: rest)
    (complete : 8 * (m.bytes.length + 4) ≤ bits) :
    exec (.readTransaction p .whole bits) s =
      .next ((s.setPort p { (s.port p).readWhole s.part bits with queue := rest }).deliverTo p) := by
  have unit : (s.setPort p ((s.port p).unflagged (readTransfer s.part bits (s.port p)))).port p =
      (s.port p).unflagged (readTransfer s.part bits (s.port p)) := State.port_setPort_self _
  have sending : (readTransfer s.part bits (s.port p)).sending = some m := by
    simp only [readTransfer, queue]
    exact if_pos (by omega)
  rw [exec_readTransaction alive idle (by omega),
    State.finishRead_removes (congrArg PortUnit.transfer unit) sending rfl complete, unit, State.setPort_setPort]
  simp only [PortUnit.unflagged, queue, List.tail_cons]
  rfl

/-- What a whole READ with a message at the head shifts out: the message, of which nothing shows before the end of the
status word. -/
theorem sdo_readTransfer {u : PortUnit} {m : Message} {rest : List Message} (part : PartState) {bits : Nat}
    (past : 8 ≤ bits)
    (queue : u.queue = m :: rest) :
    (u.readWhole part bits).sdo = padTo (bits / 8)
      ([statusByte1 part u, statusByte2 u, byteOf m.bytes.length] ++ m.bytes
        ++ [crc8 (byteOf m.bytes.length :: m.bytes)]) := by
  by_cases second : 16 ≤ bits
  · simp [PortUnit.readWhole, PortUnit.readDone, PortUnit.finish, readTransfer, captured, second, queue,
    readPayload_some]
  · have one : bits / 8 = 1 := by omega
    simp [PortUnit.readWhole, PortUnit.readDone, PortUnit.finish, readTransfer, captured, one, padTo]

/-- Settles O23: the rising edge of a READ that removes nothing, and of one that removes the head message. -/
theorem readRemovesCompleteHead : Obligations.ReadRemovesCompleteHead := by
  intro s p bits alive idle past
  cases queue : (s.port p).queue with
  | nil =>
    refine ⟨_, exec_read_keeps alive idle past (by simp [queue]), ?_⟩
    rw [State.port_setPort_self]
    refine ⟨rfl, rfl, fun _ => ⟨queue, ?_⟩, fun m rest e => by simp at e⟩
    simp [PortUnit.readWhole, PortUnit.readDone, PortUnit.finish, readTransfer, captured, queue, readPayload]
  | cons m rest =>
    have sdo := sdo_readTransfer s.part past queue
    by_cases complete : 8 * (m.bytes.length + 4) ≤ bits
    · have removes := exec_read_removes alive idle queue complete
      obtain ⟨ns, sources, entered, left⟩ :=
        State.deliverTo_entered (s.setPort p { (s.port p).readWhole s.part bits with queue := rest }) p
      obtain ⟨held, owed⟩ :=
        State.deliverTo_leaves_none (s.setPort p { (s.port p).readWhole s.part bits with queue := rest }) p
      rw [State.port_setPort_self] at entered
      refine ⟨_, removes, by rw [entered]; rfl, by rw [entered]; rfl, fun e => by simp at e, fun m' rest' e => ?_⟩
      obtain ⟨rfl, rfl⟩ := List.cons.inj e
      refine ⟨by rw [entered]; exact sdo, fun short => absurd complete (Nat.not_le.2 short),
        fun _ => ⟨fun serving => ?_, held, ns, sources, by rw [entered]; rfl, fun q hq => ⟨owed q hq, fun law => ?_⟩⟩⟩
      · rw [removes, exec_deliveryRow, State.setPort_serving, if_pos serving, ← sdo]
        rfl
      · exact left q hq ⟨(owedListed_of_owedLaw law q).1, fun r hr => by
          have owes := (owedListed_of_owedLaw law q).2 r hr
          cases r <;> exact owes⟩
    · rw [Nat.not_le] at complete
      refine ⟨_, exec_read_keeps alive idle past (by simpa [queue] using complete), ?_⟩
      rw [State.port_setPort_self]
      refine ⟨rfl, rfl, fun e => by simp at e, fun m' rest' e => ?_⟩
      obtain ⟨rfl, rfl⟩ := List.cons.inj e
      exact ⟨sdo, fun _ => queue, fun long => absurd long (Nat.not_le.2 complete)⟩

end Sys2Proof.Machine
end

section
/-! PROOFS. The four moments of a transaction as commands of their own (R101, R102, R104, R105; log 9). -/

namespace Sys2Proof.Machine

variable {s : State} {p : PortId}

/-! ### The rows of the four kinds -/

/-- The SCK periods of a transaction of the kind: a WRITE's are those of the bytes it sends. -/
def transBits (sent : List Byte) (bits : Nat) : TransKind → Nat
  | .write => kindBits + 8 * sent.length
  | .read | .status | .unknown => bits

/-- What the rising edge of a transaction of the kind does. -/
def transEnding (p : PortId) (sent : List Byte) (bits : Nat) : TransKind → State → State
  | .write => fun t => t.finishWrite p sent
  | .read => fun t => t.finishRead p bits
  | .status | .unknown => fun t => t.finishPlain p bits

/-- The row of a transaction of the kind, at a moment. -/
def transRow (p : PortId) (sent : List Byte) (kind : Byte) (bits : Nat) (k : TransKind) (e : Edge) : Instr :=
  match k with
  | .write => .writeTransaction p e sent
  | .read => .readTransaction p e bits
  | .status => .statusTransaction p e bits
  | .unknown => .unknownKindTransaction p e kind bits

theorem exec_transRow (p : PortId) (sent : List Byte) (kind : Byte) (bits : Nat) (k : TransKind) (e : Edge)
    (s : State) :
    exec (transRow p sent kind bits k e) s =
      .next (s.transact p k e (transBits sent bits k) (transEnding p sent bits k)) := by
  cases k <;> rfl

theorem transBits_of_ne {k : TransKind} (h : k ≠ .write) (sent : List Byte) (bits : Nat) :
    transBits sent bits k = bits := by
  cases k with
  | write => exact absurd rfl h
  | _ => rfl

/-- A WRITE has shifted in its kind byte. -/
theorem le_transBits {k : TransKind} {bits : Nat} (h : 8 ≤ bits ∨ k = .write) (sent : List Byte) :
    8 ≤ transBits sent bits k := by
  by_cases e : k = .write
  · rw [e]
    exact Nat.le_add_right _ _
  · rw [transBits_of_ne e]
    exact h.resolve_right e

theorem State.finishPlain_of {x : Transfer} (hx : (s.port p).transfer = some x) (bits : Nat) :
    s.finishPlain p bits = s.setPort p ((s.port p).finish x [] (bits / 8)) := by
  simp [State.finishPlain, hx]

/-! ### The moments at a port unit (R102, R104) -/

/-- The end of the first byte. -/
theorem PortUnit.report_of_unreported {u : PortUnit} {x : Transfer} (hx : u.transfer = some x)
    (hr : x.reported = false) :
    u.report =
      { u with
        overrun := u.overrun && !x.word1.getLsbD 2
        frameError := (u.frameError && !x.word1.getLsbD 1) || decide (x.kind = .unknown)
        restarted := u.restarted && !x.word1.getLsbD 0
        transfer := some { x with reported := true } } := by
  simp [PortUnit.report, hx, hr, PortUnit.clearCarried]

/-- The end of the second byte fixes nothing but an unfixed READ's message. -/
theorem PortUnit.fix_of_settled {u : PortUnit} {x : Transfer} (hx : u.transfer = some x)
    (h : x.kind ≠ .read ∨ x.fixed = true) : u.fix = u := by
  have settled : ¬(x.kind = .read ∧ x.fixed = false) := by
    rintro ⟨read, unfixed⟩
    rcases h with other | fixed
    · exact other read
    · simp [unfixed] at fixed
  obtain ⟨_, _, _, _, _, _, _, _⟩ := u
  obtain rfl := hx
  simp [PortUnit.fix, settled]

/-- The unit with the head message of its queue fixed. -/
def PortUnit.fixedUnit (x : Transfer) (u : PortUnit) : PortUnit :=
  { u with transfer := some { x with fixed := true, sending := u.queue.head?, headStill := true } }

theorem PortUnit.fix_of_unfixed {u : PortUnit} {x : Transfer} (hx : u.transfer = some x) (read : x.kind = .read)
    (unfixed : x.fixed = false) : u.fix = u.fixedUnit x := by
  simp [PortUnit.fix, PortUnit.fixedUnit, hx, read, unfixed]

/-! ### A transaction that begins (R101) -/

/-- The falling edge, then the rising edge: the whole of a transaction, and of one that ends before its kind byte. -/
theorem exec_transRow_whole (alive : s.alive = true) (idle : (s.port p).transfer = none) (sent : List Byte)
    (kind : Byte) (bits : Nat) (k : TransKind) :
    exec (transRow p sent kind bits k .begins) s = .next (s.setPort p ((s.port p).begin s.part k))
      ∧ exec (transRow p sent kind bits k .ends) (s.setPort p ((s.port p).begin s.part k)) =
          exec (transRow p sent kind bits k .whole) s
      ∧ (bits < 8 → k ≠ .write → exec (transRow p sent kind bits k .whole) s = .next s) := by
  simp only [exec_transRow]
  refine ⟨?_, ?_, fun early other => ?_⟩
  · rw [State.transact_begins alive idle]
  · rw [State.transact_whole idle, State.transact_begins alive idle]
  · rw [State.transact_whole_early alive idle k (by rwa [transBits_of_ne other])]

/-- A whole STATUS, or a whole transaction of unknown kind, shifts out the status word and low bytes (R101, R105). -/
theorem exec_transRow_plain (alive : s.alive = true) (idle : (s.port p).transfer = none) (sent : List Byte)
    (kind : Byte) {bits : Nat} (past : 8 ≤ bits) {k : TransKind} (plain : k = .status ∨ k = .unknown) :
    exec (transRow p sent kind bits k .whole) s = .next (s.setPort p
      { s.port p with
        overrun := false, frameError := decide (k = .unknown), restarted := false, transfer := none
        sdo := padTo (bits / 8) [statusByte1 s.part (s.port p), statusByte2 (s.port p)] }) := by
  have unit := PortUnit.atEnd_eq s.part k bits (s.port p)
  have ending : transEnding p sent bits k = fun t => t.finishPlain p bits := by rcases plain with rfl | rfl <;> rfl
  have other : k ≠ .write := by rcases plain with rfl | rfl <;> simp
  rw [exec_transRow, transBits_of_ne other, State.transact_whole_past alive idle k past, ending, unit]
  dsimp only
  rw [State.finishPlain_of (by rw [State.port_setPort_self]), State.port_setPort_self, State.setPort_setPort]
  rfl

/-! ### A READ whose status word has been reported (R104) -/

section
variable {x : Transfer} (hx : (s.port p).transfer = some x)

include hx

/-- The moments of a transaction whose first byte has been reported, as rows. -/
theorem exec_transRow_reported (alive : s.alive = true) (hr : x.reported = true) (sent : List Byte) (kind : Byte)
    (bits : Nat) :
    exec (transRow p sent kind bits x.kind .reports) s = .next s
      ∧ exec (transRow p sent kind bits x.kind .fixes) s = .next (s.setPort p (s.port p).fix)
      ∧ exec (transRow p sent kind bits x.kind .ends) s = .next (transEnding p sent bits x.kind
          (if 16 ≤ transBits sent bits x.kind then s.setPort p (s.port p).fix else s)) := by
  obtain ⟨reports, fixes, ends⟩ := State.transact_of_reported alive hx hr (transBits sent bits x.kind)
    (transEnding p sent bits x.kind)
  simp only [exec_transRow, reports, fixes, ends, and_self]

/-- Where nothing is left to fix, the rising edge acts on the state as it is. -/
theorem exec_transRow_settled (alive : s.alive = true) (hr : x.reported = true) (h : x.kind ≠ .read ∨ x.fixed = true)
    (sent : List Byte) (kind : Byte) (bits : Nat) :
    exec (transRow p sent kind bits x.kind .fixes) s = .next s
      ∧ exec (transRow p sent kind bits x.kind .ends) s = .next (transEnding p sent bits x.kind s) := by
  obtain ⟨-, fixes, ends⟩ := exec_transRow_reported hx alive hr sent kind bits
  rw [PortUnit.fix_of_settled hx h, State.setPort_self] at fixes ends
  exact ⟨fixes, by rw [ends, ite_self]⟩

/-- A READ that has fixed no message: the end of the second byte fixes one, in the rising edge where it ends there, and
a READ that ends before it sends nothing. -/
theorem exec_read_unfixed (alive : s.alive = true) (hr : x.reported = true) (read : x.kind = .read)
    (unfixed : x.fixed = false) (sent : List Byte) (kind : Byte) (bits : Nat) :
    exec (transRow p sent kind bits .read .fixes) s = .next (s.setPort p ((s.port p).fixedUnit x))
      ∧ (16 ≤ bits → exec (transRow p sent kind bits .read .ends) s =
          exec (transRow p sent kind bits .read .ends) (s.setPort p ((s.port p).fixedUnit x)))
      ∧ (bits < 16 → x.sending = none → exec (transRow p sent kind bits .read .ends) s =
          .next (s.setPort p ((s.port p).readDone x bits))) := by
  obtain ⟨-, fixes, ends⟩ := exec_transRow_reported hx alive hr sent kind bits
  rw [PortUnit.fix_of_unfixed hx read unfixed, read] at fixes ends
  refine ⟨fixes, fun second => ?_, fun early nothing => ?_⟩
  · have settled := exec_transRow_settled (s := s.setPort p ((s.port p).fixedUnit x)) (p := p)
      (x := { x with fixed := true, sending := (s.port p).queue.head?, headStill := true })
      (congrArg PortUnit.transfer (State.port_setPort_self _)) (by simpa using alive) hr (.inr rfl) sent kind bits
    simp only [read] at settled
    have bitsRead : transBits sent bits .read = bits := rfl
    rw [ends, settled.2, bitsRead, if_pos second]
  · have keeps := State.finishRead_keeps (bits := bits) hx fun m sending _ => by simp [nothing] at sending
    have bitsRead : transBits sent bits .read = bits := rfl
    rw [ends, bitsRead, if_neg (Nat.not_le.2 early)]
    exact congrArg Host.Outcome.next keeps

/-- A READ that has fixed its message removes it where it is the head still and has been read completely. -/
theorem exec_read_fixed (alive : s.alive = true) (hr : x.reported = true) (read : x.kind = .read)
    (fixed : x.fixed = true) (sent : List Byte) (kind : Byte) (bits : Nat) :
    exec (transRow p sent kind bits .read .fixes) s = .next s
      ∧ ((∀ m, x.sending = some m → x.headStill = true → bits < 8 * (m.bytes.length + 4)) →
          exec (transRow p sent kind bits .read .ends) s = .next (s.setPort p ((s.port p).readDone x bits)))
      ∧ ∀ m, x.headStill = true → x.sending = some m → 8 * (m.bytes.length + 4) ≤ bits →
          exec (transRow p sent kind bits .read .ends) s = .next
            ((s.setPort p { (s.port p).readDone x bits with queue := (s.port p).queue.tail }).deliverTo p) := by
  obtain ⟨fixes, ends⟩ := exec_transRow_settled hx alive hr (.inr fixed) sent kind bits
  rw [read] at fixes ends
  refine ⟨fixes, fun keeps => ?_, fun m head sending complete => ?_⟩
  · rw [ends, ← State.finishRead_keeps hx keeps]
    rfl
  · rw [ends, ← State.finishRead_removes hx sending head complete]
    rfl

end

/-- Settles O24: the flags, the falling edge and the whole, and then each moment of a transaction in progress. -/
theorem transactionsInTheirMoments : Obligations.TransactionsInTheirMoments := by
  refine ⟨statusByte1_flags, fun s p sent kind bits alive _ _ _ => ?_⟩
  intro u row ended
  have rows : row = transRow p sent kind bits := by
    funext k e
    cases k <;> rfl
  rw [rows]
  refine ⟨fun idle k => ?_, fun x hx => ⟨fun unreported => ?_, fun reported => ?_⟩⟩
  · obtain ⟨begins, ends, early⟩ := exec_transRow_whole alive idle sent kind bits k
    refine ⟨begins, ends, early, fun past status => ?_, fun past unknown => ?_⟩
    · rw [exec_transRow_plain alive idle sent kind past (.inl status), status]
      rfl
    · rw [exec_transRow_plain alive idle sent kind past (.inr unknown), unknown]
      rfl
  · obtain ⟨reports, fixes, ends, abandoned⟩ := State.transact_of_unreported alive hx unreported
      (transBits sent bits x.kind) (transEnding p sent bits x.kind)
    rw [PortUnit.report_of_unreported hx unreported] at reports fixes ends
    simp only [exec_transRow]
    refine ⟨by rw [reports], by rw [fixes], fun past => by rw [ends (le_transBits past sent)], fun early other => ?_⟩
    rw [abandoned (by rwa [transBits_of_ne other])]
  · refine ⟨(exec_transRow_reported hx alive reported sent kind bits).1, fun plain => ?_,
      fun read => ⟨fun unfixed => ?_, fun fixed => ?_⟩⟩
    · have other : x.kind ≠ .read := by rcases plain with e | e <;> simp [e]
      have ending : transEnding p sent bits x.kind = fun t => t.finishPlain p bits := by
        rcases plain with e | e <;> rw [e] <;> rfl
      rw [(exec_transRow_settled hx alive reported (.inl other) sent kind bits).2, ending]
      exact congrArg _ (State.finishPlain_of hx bits)
    · exact exec_read_unfixed hx alive reported read unfixed sent kind bits
    · obtain ⟨fixes, keeps, removes⟩ := exec_read_fixed hx alive reported read fixed sent kind bits
      refine ⟨fixes, fun gone => keeps fun m sending head => ?_, fun m head sending => ⟨fun short => keeps ?_,
        fun complete => ⟨fun serving => ?_, ?_⟩⟩⟩
      · rcases gone with gone | gone
        · simp [gone] at head
        · simp [gone] at sending
      · intro m' sending' _
        obtain rfl := Option.some.inj (sending.symm.trans sending')
        exact short
      · rw [removes m head sending complete, exec_deliveryRow, State.setPort_serving, if_pos serving]
        rfl
      · obtain ⟨ns, sources, entered, -⟩ := State.deliverTo_entered
          (s.setPort p { (s.port p).readDone x bits with queue := (s.port p).queue.tail }) p
        rw [State.port_setPort_self] at entered
        exact ⟨_, ns, removes m head sending complete, by rw [entered]; rfl, by rw [entered]; rfl, sources⟩

end Sys2Proof.Machine
end

section
/-! PROOFS. What RESET# falling and power loss abandon, and what an operation cut short leaves of the array
(R100, R106, R148, R149). -/

namespace Sys2Proof.Machine

/-! ### The bytes a plan leaves alone -/

/-- How many bytes an action reaches. -/
def ArrayAct.len : ArrayAct → Nat
  | .erase _ len => len
  | .program _ bs => bs.length

/-- A step leaves a byte alone: the byte stands outside what the step's action reaches, and outside the header pages
where the step erases one of them (its outcome is then settled, R151). -/
def PlanStep.clearOf (st : PlanStep) (a : Nat) : Prop :=
  (a < st.act.addr ∨ st.act.addr + st.act.len ≤ a) ∧ (st.act.erasesPage = none ∨ a < headerAddr .h0)

theorem ArrayAct.read_run {m : List Host.Cell} (h : Memory.wf m) (act : ArrayAct) (q : Option (List Byte)) {a : Nat}
    (clear : a < act.addr ∨ act.addr + act.len ≤ a) : Memory.read (act.run m q) a = Memory.read m a := by
  cases act with
  | erase b n =>
    simp only [ArrayAct.addr, ArrayAct.len] at clear
    cases q with
    | none => rw [ArrayAct.run, Memory.read_eraseRange h.1, if_neg (by omega)]
    | some g => rw [ArrayAct.run, Memory.read_writeBytes h.1, erasedWith_length, if_neg (by omega)]
  | program b bs =>
    simp only [ArrayAct.addr, ArrayAct.len] at clear
    cases q <;> rw [ArrayAct.run, Memory.read_writeBytes h.1, programmedWith_length, if_neg (by omega)]

theorem headerAddr_h0_le (h : HPage) : headerAddr .h0 ≤ headerAddr h := by cases h <;> decide

/-- Settling an erase changes bytes of the header pages only. -/
theorem ArrayAct.read_settle (act : ArrayAct) (m : List Host.Cell) {m' : List Host.Cell} (h : Memory.wf m') {a : Nat}
    (clear : act.erasesPage = none ∨ a < headerAddr .h0) :
    Memory.read (act.settle m m') a = Memory.read m' a := by
  rcases clear with none | below
  · rw [ArrayAct.settle_of_none none]
  · rw [ArrayAct.settle]
    split
    · rename_i p _
      have := headerAddr_h0_le p
      split
      · rw [Memory.read_writeBytes h.1, if_neg (by omega)]
      · rfl
    · rfl

theorem PlanStep.read_step {m : List Host.Cell} (h : Memory.wf m) {st : PlanStep} (hi : st.inside)
    (q : Option (List Byte)) {a : Nat} (clear : st.clearOf a) :
    Memory.read (st.act.settle m (st.act.run m q)) a = Memory.read m a := by
  rw [ArrayAct.read_settle st.act m (ArrayAct.run_wf h hi.1 q) clear.2, ArrayAct.read_run h st.act q clear.1]

/-- Cut short, a plan leaves every byte that each of its steps leaves alone. -/
theorem read_runPlan_exposed {plan : List PlanStep} (hp : ∀ st ∈ plan, st.inside) {a : Nat}
    (clear : ∀ st ∈ plan, st.clearOf a) (q : Quirks) {m : List Host.Cell} (h : Memory.wf m) :
    Memory.read (runPlan (plan.map PlanStep.exposed) q m).array a = Memory.read m a := by
  induction plan generalizing q m with
  | nil => rfl
  | cons st rest ih =>
    have inside := hp st List.mem_cons_self
    have one := PlanStep.read_step h inside (q.headD none) (clear st List.mem_cons_self)
    have rest (q') := ih (fun x hx => hp x (List.mem_cons_of_mem _ hx))
      (fun x hx => clear x (List.mem_cons_of_mem _ hx)) q'
      (ArrayAct.settle_wf st.act m (ArrayAct.run_wf h inside.1 (q.headD none)))
    simp only [List.map_cons, runPlan, PlanStep.spare_exposed]
    split
    · exact (rest _).trans one
    · split
      · exact one
      · exact (rest _).trans one

theorem read_interruptPlan {plan : List PlanStep} (hp : ∀ st ∈ plan, st.inside) {a : Nat}
    (clear : ∀ st ∈ plan, st.clearOf a) (done : Quirks) {m : List Host.Cell} (h : Memory.wf m) :
    Memory.read (interruptPlan plan done m) a = Memory.read m a :=
  read_runPlan_exposed (fun st hs => hp st (List.mem_of_mem_take hs)) (fun st hs => clear st (List.mem_of_mem_take hs))
    done h

theorem PlanStep.clearOf_header {st : PlanStep} (ha : headerAddr .h0 ≤ st.act.addr) {a : Nat}
    (below : a < headerAddr .h0) : st.clearOf a :=
  ⟨.inl (Nat.lt_of_lt_of_le below ha), .inr below⟩

theorem erasePageStep_clearOf {p : PageNo} {a : Nat} (h : a < 384 * p.val ∨ 384 * p.val + 384 ≤ a) :
    (erasePageStep p).clearOf a := by
  have hp := p.isLt
  refine ⟨h, .inl ?_⟩
  have before : ∀ x : HPage, pageAddr p ≠ headerAddr x := fun x => by
    have := headerAddr_h0_le x
    have page : pageAddr p = 384 * p.val := rfl
    have header : headerAddr .h0 = 6144 := rfl
    omega
  rw [erasePageStep, ArrayAct.erasesPage, if_neg (before _), if_neg (before _)]

/-- A header page is written, and the other one erased, inside the header pages. -/
theorem writePagePlan_addr (target : HPage) (head : List Byte) :
    ∀ st ∈ writePagePlan target head, headerAddr .h0 ≤ st.act.addr := by
  have := headerAddr_h0_le target
  simp only [writePagePlan, List.forall_mem_cons, ArrayAct.addr, List.not_mem_nil, false_imp_iff, implies_true,
    and_true]
  omega

theorem headerPlan_addr (target : HPage) (head : List Byte) (k : Nat) :
    ∀ st ∈ headerPlan target head k, headerAddr .h0 ≤ st.act.addr := by
  simpa only [headerPlan, List.forall_mem_append, List.forall_mem_singleton] using
    ⟨writePagePlan_addr target head, headerAddr_h0_le target.other⟩

theorem startUpPlan_addr (m : List Host.Cell) : ∀ st ∈ startUpPlan m, headerAddr .h0 ≤ st.act.addr := by
  have mark : ∀ (h : HPage) (k : Nat), headerAddr .h0 ≤ (markStep h k).act.addr := fun h k => by
    have := headerAddr_h0_le h
    simp only [markStep, ArrayAct.addr]
    omega
  have erase : ∀ (h : HPage) (f : Option Nat), headerAddr .h0 ≤
      (PlanStep.act { act := .erase (headerAddr h) Config.headerBytes, onFail := f }).addr :=
    fun h _ => headerAddr_h0_le h
  rw [startUpPlan]
  split
  · simp
  · rename_i h _
    have cleanup : ∀ st ∈ (if needsCleanup m then
        [{ act := .erase (headerAddr h.other) Config.headerBytes, onFail := none }] else [] : List PlanStep),
        headerAddr .h0 ≤ st.act.addr := by
      split
      · simpa using erase h.other none
      · simp
    simp only [headerWork]
    split
    · exact cleanup
    · split
      · simp only [List.forall_mem_append, List.forall_mem_cons, List.not_mem_nil, false_imp_iff, implies_true,
          and_true]
        exact ⟨⟨cleanup, writePagePlan_addr _ _⟩, erase h none, mark _ _⟩
      · simp only [List.forall_mem_append, List.forall_mem_singleton]
        exact ⟨cleanup, mark _ _⟩

/-! ### The entries an operation cut short leaves (R148) -/

theorem readBytes_congr {m m' : List Host.Cell} {a n : Nat}
    (h : ∀ x, a ≤ x → x < a + n → Memory.read m x = Memory.read m' x) :
    Memory.readBytes m a n = Memory.readBytes m' a n := by
  induction n generalizing a with
  | zero => rfl
  | succ n ih =>
    rw [Memory.readBytes, Memory.readBytes, h a (Nat.le_refl _) (by omega),
      ih fun x lo hi => h x (by omega) (by omega)]

theorem byteAt_readBytes (m : List Host.Cell) {a n i : Nat} (h : i < n) :
    byteAt (Memory.readBytes m a n) i = Memory.read m (a + i) := by
  induction n generalizing a i with
  | zero => omega
  | succ n ih =>
    cases i with
    | zero => rfl
    | succ i =>
      rw [Memory.readBytes, byteAt, ih (by omega)]
      congr 1
      omega

/-- Two arrays with the same bytes of an entry hold the same image of it. -/
theorem imageOf_congr {m m' : List Host.Cell} {n : ResNo}
    (h : ∀ x, 24 * n.val ≤ x → x < 24 * n.val + 24 → Memory.read m x = Memory.read m' x) :
    imageOf m n = imageOf m' n :=
  readBytes_congr h

/-- Bytes outside the entry are left as they are. -/
theorem read_settleImage {old m : List Host.Cell} (h : Memory.wf m) (goal : List Byte) {n : ResNo} {a : Nat}
    (outside : a < 24 * n.val ∨ 24 * n.val + 24 ≤ a) :
    Memory.read (settleImage old goal m n) a = Memory.read m a := by
  rw [settleImage]
  split
  · rfl
  · rw [Memory.read_writeBytes h.1, imageOf, Memory.readBytes_length, if_neg]
    simp only [entryAddr, Config.imageBytes]
    omega

/-- An entry after the operation that was changing it is cut short: as the operation would have it, DAMAGED, or as
before (R148). -/
def settled (old : List Host.Cell) (goal : List Byte) (m : List Host.Cell) (n : ResNo) : Prop :=
  imageOf m n = goal ∨ classify (imageOf m n) = .damaged ∨ imageOf m n = imageOf old n

theorem settled_settleImage {old m : List Host.Cell} (h : Memory.wf m) (goal : List Byte) (n : ResNo) :
    settled old goal (settleImage old goal m n) n := by
  rw [settleImage]
  split
  · rename_i fits
    exact fits.imp_right .inl
  · refine .inr (.inr (imageOf_congr fun x lo hi => ?_))
    rw [Memory.read_writeBytes h.1, imageOf, Memory.readBytes_length, if_pos ⟨lo, hi⟩,
      byteAt_readBytes _ (by simp only [entryAddr, Config.imageBytes]; omega)]
    congr 1
    exact Nat.add_sub_cancel' lo

theorem settled_settleImage_of_settled {old m : List Host.Cell} (h : Memory.wf m) {goal : List Byte} {n k : ResNo}
    (hk : settled old goal m k) : settled old goal (settleImage old goal m n) k := by
  by_cases same : k = n
  · subst same
    exact settled_settleImage h goal k
  · have apart : k.val ≠ n.val := fun e => same (Fin.ext e)
    rw [settled, imageOf_congr fun x lo hi => read_settleImage h goal (by omega)]
    exact hk

/-- The entries are settled one after the other, all with one goal. -/
def settleAll (old : List Host.Cell) (goal : List Byte) (ns : List ResNo) (m : List Host.Cell) : List Host.Cell :=
  ns.foldl (settleImage old goal) m

theorem read_settleAll {old m : List Host.Cell} (h : Memory.wf m) (goal : List Byte) {ns : List ResNo} {a : Nat}
    (outside : ∀ n ∈ ns, a < 24 * n.val ∨ 24 * n.val + 24 ≤ a) :
    Memory.read (settleAll old goal ns m) a = Memory.read m a := by
  induction ns generalizing m with
  | nil => rfl
  | cons n ns ih =>
    exact (ih (settleImage_wf h goal n) fun k hk => outside k (List.mem_cons_of_mem _ hk)).trans
      (read_settleImage h goal (outside n List.mem_cons_self))

theorem settled_settleAll_of_settled {old m : List Host.Cell} (h : Memory.wf m) {goal : List Byte} {k : ResNo}
    (hk : settled old goal m k) (ns : List ResNo) : settled old goal (settleAll old goal ns m) k := by
  induction ns generalizing m with
  | nil => exact hk
  | cons n ns ih => exact ih (settleImage_wf h goal n) (settled_settleImage_of_settled h hk)

theorem settled_settleAll {old m : List Host.Cell} (h : Memory.wf m) (goal : List Byte) {ns : List ResNo} {k : ResNo}
    (hk : k ∈ ns) : settled old goal (settleAll old goal ns m) k := by
  induction ns generalizing m with
  | nil => exact absurd hk List.not_mem_nil
  | cons n ns ih =>
    have wf := settleImage_wf (old := old) h goal n
    rcases List.mem_cons.1 hk with rfl | rest
    · exact settled_settleAll_of_settled wf (settled_settleImage h goal k) ns
    · exact ih wf rest

/-! ### The operations cut short -/

section
variable {s : State} (h : Memory.wf s.array) (done : Quirks)
include h

theorem State.interruptPlan_planOf_wf (op : StoreOp) : Memory.wf (interruptPlan (s.planOf op) done s.array) :=
  interruptPlan_wf (s.planOf_inside op) done h

/-- A PROGRAM_ENTRY cut short. -/
theorem State.cutShort_programEntry (n : ResNo) (image : List Byte) :
    (∀ a : Nat, a < 24 * n.val ∨ 24 * n.val + 24 ≤ a →
      Memory.read (s.cutShort (.programEntry n image) done) a = Memory.read s.array a)
    ∧ settled s.array (sealImage image) (s.cutShort (.programEntry n image) done) n := by
  have wf := s.interruptPlan_planOf_wf h done (.programEntry n image)
  refine ⟨fun a outside => (read_settleImage wf _ outside).trans
    (read_interruptPlan (s.planOf_inside _) (fun st hs => ?_) done h), settled_settleImage wf _ n⟩
  rw [State.planOf] at hs
  split at hs
  · rw [List.mem_singleton.1 hs]
    refine ⟨?_, .inl rfl⟩
    simpa only [ArrayAct.addr, ArrayAct.len, sealImage_length, entryAddr, Config.imageBytes] using outside
  · exact absurd hs List.not_mem_nil

/-- An ERASE_PAGE cut short. -/
theorem State.cutShort_erasePage (p : PageNo) :
    (∀ a : Nat, a < 384 * p.val ∨ 384 * p.val + 384 ≤ a →
      Memory.read (s.cutShort (.erasePage p) done) a = Memory.read s.array a)
    ∧ ∀ n : ResNo, n.val / 16 = p.val → settled s.array blankImage (s.cutShort (.erasePage p) done) n := by
  have wf := s.interruptPlan_planOf_wf h done (.erasePage p)
  have all : s.cutShort (.erasePage p) done =
      settleAll s.array blankImage (entriesOn p) (interruptPlan (s.planOf (.erasePage p)) done s.array) := by
    rw [State.cutShort, StoreOp.goals, List.foldl_map, settleAll]
  have onPage : ∀ n : ResNo, n ∈ entriesOn p ↔ n.val / 16 = p.val := fun n => by
    rw [entriesOn, allResources, List.mem_filter, decide_eq_true_eq, pageOf]
    exact and_iff_right (List.mem_finRange n)
  rw [all]
  refine ⟨fun a outside => (read_settleAll wf _ fun n hn => ?_).trans
    (read_interruptPlan (s.planOf_inside _) (fun st hs => ?_) done h), fun n hn =>
    settled_settleAll wf _ ((onPage n).2 hn)⟩
  · have := (onPage n).1 hn
    omega
  · rw [State.planOf, List.mem_singleton] at hs
    exact hs ▸ erasePageStep_clearOf outside

/-- An ERASE_DIRECTORY cut short. -/
theorem State.cutShort_eraseDirectory :
    (∀ a : Nat, 6144 ≤ a → Memory.read (s.cutShort .eraseDirectory done) a = Memory.read s.array a)
    ∧ ∀ n : ResNo, settled s.array blankImage (s.cutShort .eraseDirectory done) n := by
  have wf := s.interruptPlan_planOf_wf h done .eraseDirectory
  have all : s.cutShort .eraseDirectory done =
      settleAll s.array blankImage allResources (interruptPlan (s.planOf .eraseDirectory) done s.array) := by
    rw [State.cutShort, StoreOp.goals, List.foldl_map, settleAll]
  rw [all]
  refine ⟨fun a outside => (read_settleAll wf _ fun n _ => ?_).trans
    (read_interruptPlan (s.planOf_inside _) (fun st hs => ?_) done h), fun n =>
    settled_settleAll wf _ (List.mem_finRange n)⟩
  · have := n.isLt
    omega
  · obtain ⟨p, -, rfl⟩ := List.mem_map.1 hs
    have := p.isLt
    exact erasePageStep_clearOf (by omega)

/-- A header operation cut short leaves the directory alone. -/
theorem State.cutShort_header {op : StoreOp} (goals : op.goals = [])
    (addr : ∀ st ∈ s.planOf op, headerAddr .h0 ≤ st.act.addr) {a : Nat} (below : a < 6144) :
    Memory.read (s.cutShort op done) a = Memory.read s.array a := by
  rw [State.cutShort, goals]
  exact read_interruptPlan (s.planOf_inside op) (fun st hs => PlanStep.clearOf_header (addr st hs) below) done h

/-- The header work of a start-up, cut short, leaves the directory alone. -/
theorem read_startUp_cutShort {a : Nat} (below : a < 6144) :
    Memory.read (interruptPlan (startUpPlan s.array) done s.array) a = Memory.read s.array a :=
  read_interruptPlan (startUpPlan_inside _)
    (fun st hs => PlanStep.clearOf_header (startUpPlan_addr _ st hs) below) done h

end

/-! ### What the loss leaves of the array -/

theorem State.interrupted_of_running {s : State} (done : Quirks) {op : StoreOp} (running : s.store.running = some op) :
    s.interrupted done = s.array ∨ s.interrupted done = s.cutShort op done := by
  cases alive : s.alive with
  | false => exact .inl (by simp [State.interrupted, alive])
  | true => exact .inr (by simp [State.interrupted, alive, running])

theorem State.interrupted_of_idle {s : State} (done : Quirks) (idle : s.store.running = none) :
    s.interrupted done = s.array ∨ s.interrupted done = interruptPlan (startUpPlan s.array) done s.array := by
  cases alive : s.alive with
  | false => exact .inl (by simp [State.interrupted, alive])
  | true =>
    by_cases starting : s.part = .starting
    · exact .inr (by simp [State.interrupted, alive, idle, starting])
    · exact .inl (by simp [State.interrupted, alive, idle, starting])

/-- A property of the array that holds untouched and of the operation cut short holds after the loss. -/
theorem State.interrupted_cases {s : State} {done : Quirks} {op : StoreOp} (running : s.store.running = some op)
    {P : List Host.Cell → Prop} (before : P s.array) (cut : P (s.cutShort op done)) : P (s.interrupted done) := by
  rcases State.interrupted_of_running done running with e | e <;> rw [e] <;> assumption

theorem settled_self (old : List Host.Cell) (goal : List Byte) (n : ResNo) : settled old goal old n :=
  .inr (.inr rfl)

theorem blank_of_settled {old m : List Host.Cell} {n : ResNo} (h : settled old blankImage m n) :
    blank (imageOf m n) = true ∨ classify (imageOf m n) = .damaged ∨ imageOf m n = imageOf old n := by
  have erased : blank blankImage = true := by decide
  exact h.imp_left fun (goal : imageOf m n = blankImage) => by rw [goal, erased]

theorem padTo_of_length (bs : List Byte) : padTo bs.length bs = bs := by
  induction bs with
  | nil => rfl
  | cons b bs ih => rw [List.length_cons, padTo, ih]

theorem sealImage_of_length {image : List Byte} (h : image.length = 22) :
    sealImage image = image ++ crc16Bytes image := by
  rw [sealImage, ← h, padTo_of_length]

theorem State.interrupted_untouched {s : State} (done : Quirks)
    (h : s.alive = false ∨ (s.store.running = none ∧ s.part ≠ .starting)) : s.interrupted done = s.array := by
  rcases h with dead | ⟨idle, started⟩
  · simp [State.interrupted, dead]
  · simp [State.interrupted, idle, started]

theorem State.interrupted_reading {s : State} (done : Quirks)
    (h : (∃ p : Option PageNo, s.store.running = some (.blankCheck p)) ∨ s.store.running = some .scanCrc) :
    s.interrupted done = s.array := by
  have nothing : ∀ op : StoreOp, op.goals = [] → s.planOf op = [] → s.cutShort op done = s.array :=
    fun op goals plan => by simp [State.cutShort, goals, plan, interruptPlan, runPlan]
  rcases h with ⟨p, running⟩ | running
  · exact State.interrupted_cases running (P := (· = s.array)) rfl (nothing (.blankCheck p) rfl rfl)
  · exact State.interrupted_cases running (P := (· = s.array)) rfl (nothing .scanCrc rfl rfl)

/-- The directory is left as it was by the loss of a header operation and of a start-up's header work. -/
theorem State.interrupted_header {s : State} (h : Memory.wf s.array) (done : Quirks)
    (running : (∃ x : Settings, s.store.running = some (.writeSettings x))
      ∨ (∃ base : Nat, s.store.running = some (.initHeader base)) ∨ s.store.running = none) {a : Nat}
    (below : a < 6144) : Memory.read (s.interrupted done) a = Memory.read s.array a := by
  rcases running with ⟨x, running⟩ | ⟨base, running⟩ | idle
  · exact State.interrupted_cases running (P := fun m => Memory.read m a = Memory.read s.array a) rfl
      (State.cutShort_header h done (op := .writeSettings x) rfl (headerPlan_addr _ _ _) below)
  · exact State.interrupted_cases running (P := fun m => Memory.read m a = Memory.read s.array a) rfl
      (State.cutShort_header h done (op := .initHeader base) rfl (headerPlan_addr _ _ _) below)
  · rcases State.interrupted_of_idle done idle with e | e <;> rw [e]
    exact read_startUp_cutShort h done below

/-! ### The falling edge and the loss -/

theorem exec_resetAssert {s : State} (done : Quirks) (high : s.resetLow = false) :
    ∃ t, exec (.resetAssert done) s = .next t ∧ t.resetLow = true ∧ t.array = s.interrupted done
      ∧ t.store.running = none ∧ t.alive = false
      ∧ ∀ p : PortId, t.attnLow p = false ∧ (t.port p).transfer = none := by
  refine ⟨_, by simp only [exec, execResetAssert, high]; rfl, rfl, rfl, rfl, by simp [State.alive], fun p => ⟨?_, ?_⟩⟩
  · simp [State.attnLow, State.alive]
  · rw [State.port, vmap_get]

theorem exec_powerLoss {s : State} (done : Quirks) (powered : s.powered = true) :
    ∃ t, exec (.powerLoss done) s = .next t ∧ t.powered = false ∧ t.array = s.interrupted done
      ∧ t.store.running = none ∧ t.alive = false
      ∧ ∀ p : PortId, t.attnLow p = false ∧ (t.port p).transfer = none := by
  refine ⟨_, by simp only [exec, execPowerLoss, powered]; rfl, rfl, rfl, rfl, by simp [State.alive], fun p => ⟨?_, ?_⟩⟩
  · simp [State.attnLow, State.alive]
  · exact congrArg PortUnit.transfer (State.reset_port p)

theorem State.attnLow_iff {s : State} (p : PortId) (alive : s.alive = true) :
    s.attnLow p = true ↔ (s.port p).queue ≠ [] := by
  simp [State.attnLow, alive]

/-- Settles O17: the two events in turn, ATTN#, and the bytes and entries each operation cut short leaves. -/
theorem resetAndPowerLossAbandon : Obligations.ResetAndPowerLossAbandon := by
  refine ⟨fun s done => exec_resetAssert done, fun s done => exec_powerLoss done, fun s p => State.attnLow_iff p,
    fun s done wf => ⟨s.interrupted_untouched done, s.interrupted_reading done, ?_, ?_, ?_,
      fun running a => s.interrupted_header wf done running⟩⟩
  · intro n image running length
    obtain ⟨outside, entry⟩ := s.cutShort_programEntry wf done n image
    rw [sealImage_of_length length] at entry
    exact State.interrupted_cases running
      (P := fun m => (∀ a, a < 24 * n.val ∨ 24 * n.val + 24 ≤ a → Memory.read m a = Memory.read s.array a)
        ∧ settled s.array (image ++ crc16Bytes image) m n)
      ⟨fun _ _ => rfl, settled_self _ _ n⟩ ⟨outside, entry⟩
  · intro p running
    obtain ⟨outside, entries⟩ := s.cutShort_erasePage wf done p
    exact State.interrupted_cases running
      (P := fun m => (∀ a, a < 384 * p.val ∨ 384 * p.val + 384 ≤ a → Memory.read m a = Memory.read s.array a)
        ∧ ∀ n : ResNo, n.val / 16 = p.val → blank (imageOf m n) = true ∨ classify (imageOf m n) = .damaged
          ∨ imageOf m n = imageOf s.array n)
      ⟨fun _ _ => rfl, fun n _ => blank_of_settled (settled_self _ _ n)⟩
      ⟨outside, fun n hn => blank_of_settled (entries n hn)⟩
  · intro running
    obtain ⟨outside, entries⟩ := s.cutShort_eraseDirectory wf done
    exact State.interrupted_cases running
      (P := fun m => (∀ a, 6144 ≤ a → Memory.read m a = Memory.read s.array a)
        ∧ ∀ n : ResNo, blank (imageOf m n) = true ∨ classify (imageOf m n) = .damaged
          ∨ imageOf m n = imageOf s.array n)
      ⟨fun _ _ => rfl, fun n => blank_of_settled (settled_self _ _ n)⟩
      ⟨outside, fun n => blank_of_settled (entries n)⟩

end Sys2Proof.Machine
end

section
/-! PROOFS. Clients that the grant rule passes by: with no wait of theirs in a queue and no pending upgrade, it gives
them no slot, no wait entry and no notice, and leaves the slots they have as they are; the leases of all the others run
on (R59, R116, R117, R132). -/

namespace Sys2Proof.Machine

/-! ### A lease that runs on -/

/-- The same lease, as far as its client, its resource and its term go. -/
def Lease.RunsOn (l x : Lease) : Prop := x.client = l.client ∧ x.resource = l.resource ∧ x.remaining = l.remaining

/-- A live lease of the slot runs on, in the same slot and generation. -/
def Slot.RunsOn (v w : Slot) : Prop :=
  ∀ l : Lease, v.body.live? = some l →
    w.generation = v.generation ∧ ∃ x : Lease, w.body.live? = some x ∧ l.RunsOn x

theorem Slot.RunsOn.refl {v : Slot} : v.RunsOn v := fun l h => ⟨rfl, l, h, rfl, rfl, rfl⟩

theorem Slot.RunsOn.trans {u v w : Slot} (h : u.RunsOn v) (k : v.RunsOn w) : u.RunsOn w := fun l hl => by
  obtain ⟨gv, x, hx, cx, rx, tx⟩ := h l hl
  obtain ⟨gw, y, hy, cy, ry, ty⟩ := k x hx
  exact ⟨gw.trans gv, y, hy, cy.trans cx, ry.trans rx, ty.trans tx⟩

theorem Slot.RunsOn.of_not_live {v w : Slot} (h : v.body.live? = none) : v.RunsOn w := fun l hl => by
  rw [h] at hl
  exact absurd hl (Option.some_ne_none l).symm

theorem SlotBody.live_mapLease {f : Lease → Lease} (b : SlotBody) : (b.mapLease f).live? = b.live?.map f := by
  cases b <;> rfl

theorem SlotBody.live_dropDeadline (b : SlotBody) : b.dropDeadline.live? = b.live? := by cases b <;> rfl

theorem SlotBody.client_dropDeadline (b : SlotBody) : b.dropDeadline.client? = b.client? := by cases b <;> rfl

theorem SlotBody.client_mapLease {f : Lease → Lease} (hf : ∀ l, (f l).client = l.client) (b : SlotBody) :
    (b.mapLease f).client? = b.client? := by
  cases b <;> simp [SlotBody.mapLease, SlotBody.client?, hf]

theorem SlotBody.client_of_lease {b : SlotBody} {l : Lease} (h : b.lease? = some l) : b.client? = some l.client := by
  cases b <;> simp_all [SlotBody.lease?, SlotBody.client?]

theorem SlotBody.client_of_live {b : SlotBody} {l : Lease} (h : b.live? = some l) : b.client? = some l.client :=
  SlotBody.client_of_lease (SlotBody.lease_of_live h)

theorem SlotBody.client_of_reservedFor {b : SlotBody} {w : Wait} (h : b.reservedFor w) :
    b.client? = some w.client ∧ b.live? = none := by
  cases b <;> simp_all [SlotBody.reservedFor, SlotBody.client?, SlotBody.live?, Reservation.answers]

/-- A body with the same live lease, or with what a lease is owed, warned, its mode or its fence changed. -/
theorem Slot.RunsOn.of_map {v w : Slot} {f : Lease → Lease} (hf : ∀ l : Lease, l.RunsOn (f l))
    (hg : w.generation = v.generation) (hw : w.body.live? = v.body.live?.map f) : v.RunsOn w := fun l hl =>
  ⟨hg, f l, by rw [hw, hl]; rfl, hf l⟩

/-! ### What passes clients by -/

/-- No client of `K` waits in a queue and no pending upgrade names a slot of one: there is nothing that the grant rule
could give one. -/
structure Calm (K : Client → Prop) (s : State) : Prop where
  booked : s.booked
  waits : ∀ (j : WaitNo) (w : Wait) (r : Limit) (i : SlotNo), s.wait j = .queued w r i → ¬ K w.client
  upgrades : ∀ (n : ResNo) (i : SlotNo), (s.record n).upgradePending = some i →
    ∀ c, (s.slot i).body.client? = some c → ¬ K c

/-- A message for a client of the port that is not in `K`. -/
def Message.forOther (K : Client → Prop) (q : CPort) (m : Message) : Prop :=
  ∃ c : Client, ¬ K c ∧ c.port = q ∧ m.tag = byteOf c.tag.val

/-- From `s` to `t` nothing comes to the clients of `K` and nothing of theirs changes, and every lease runs on. -/
structure Passes (K : Client → Prop) (s t : State) : Prop where
  calm : Calm K t
  runs : ∀ i, (s.slot i).RunsOn (t.slot i)
  slots : ∀ i c, (s.slot i).body.client? = some c → K c → t.slot i = s.slot i
  came : ∀ i c, (t.slot i).body.client? = some c → K c → (s.slot i).body.client? = some c
  waits : ∀ j w, (t.wait j).info? = some w → K w.client → (s.wait j).info? = some w
  queue : ∀ q, ∀ m ∈ (t.port (.client q)).queue, m ∈ (s.port (.client q)).queue ∨ m.forOther K q
  owed : ∀ q, ∀ r ∈ (t.side q).owed, r ∈ (s.side q).owed ∨ ∃ c : Client, ¬ K c ∧ c.port = q

variable {K : Client → Prop} {s t u : State}

theorem Passes.refl (h : Calm K s) : Passes K s s :=
  ⟨h, fun _ => .refl, fun _ _ _ _ => rfl, fun _ _ x _ => x, fun _ _ x _ => x, fun _ _ => .inl, fun _ _ => .inl⟩

theorem Passes.trans (h : Passes K s t) (k : Passes K t u) : Passes K s u where
  calm := k.calm
  runs i := (h.runs i).trans (k.runs i)
  slots i c hc hk := by
    have same := h.slots i c hc hk
    rw [k.slots i c (by rwa [same]) hk, same]
  came i c hc hk := h.came i c (k.came i c hc hk) hk
  waits j w hw hk := h.waits j w (k.waits j w hw hk) hk
  queue q m hm := (k.queue q m hm).elim (h.queue q m) .inr
  owed q r hr := (k.owed q r hr).elim (h.owed q r) .inr

theorem Passes.foldl {α : Type} {f : State → α → State} (hf : ∀ t a, Calm K t → Passes K t (f t a)) (l : List α)
    (h : Calm K s) : Passes K s (l.foldl f s) := by
  induction l generalizing s with
  | nil => exact .refl h
  | cons a l ih => exact (hf s a h).trans (ih (hf s a h).calm)

/-! ### Updates -/

/-- The slots, the wait entries and the pending upgrades are as they were. -/
theorem Calm.of_same (h : Calm K s) (hs : t.slots = s.slots) (hw : t.waits = s.waits)
    (hu : ∀ n i, (t.record n).upgradePending = some i → (s.record n).upgradePending = some i) : Calm K t where
  booked := (Kept.of_same (t := { s with slots := t.slots, waits := t.waits }) hs hw fun _ => rfl).booked h.booked
  waits j w r i e := h.waits j w r i (by rw [← e, State.wait, State.wait, hw])
  upgrades n i e c hc := h.upgrades n i (hu n i e) c (by rw [← hc, State.slot, State.slot, hs])

/-- An update of the records, of the directory or of the activation list. -/
theorem Passes.of_same (h : Calm K s) (hs : t.slots = s.slots) (hw : t.waits = s.waits)
    (hu : ∀ n i, (t.record n).upgradePending = some i → (s.record n).upgradePending = some i)
    (hp : ∀ q, t.port (.client q) = s.port (.client q)) (hd : t.sides = s.sides) : Passes K s t where
  calm := h.of_same hs hw hu
  runs i := by rw [State.slot, State.slot, hs]; exact .refl
  slots i _ _ _ := by rw [State.slot, State.slot, hs]
  came i c hc _ := by rw [← hc, State.slot, State.slot, hs]
  waits j w hw' _ := by rw [← hw', State.wait, State.wait, hw]
  queue q m hm := .inl (by rwa [hp] at hm)
  owed q r hr := .inl (by rwa [State.side, hd] at hr)

theorem passes_setRecord (h : Calm K s) {n : ResNo} {r : Record}
    (hr : ∀ i, r.upgradePending = some i → (s.record n).upgradePending = some i) : Passes K s (s.setRecord n r) :=
  .of_same h rfl rfl (fun k i e => by
    rw [State.record_setRecord] at e
    split at e
    · rename_i same; exact same ▸ hr i e
    · exact e) (fun _ => rfl) rfl

/-- A slot of a client outside `K` takes a body of such a client. -/
theorem passes_setSlot (h : Calm K s) {i : SlotNo} {v : Slot}
    (hi : ∀ c, (s.slot i).body.client? = some c → ¬ K c) (hv : ∀ c, v.body.client? = some c → ¬ K c)
    (run : (s.slot i).RunsOn v) (hb : ∀ w, (s.slot i).body.reservedFor w → v.body.reservedFor w) :
    Passes K s (s.setSlot i v) where
  calm := ⟨h.booked.setSlot hb, h.waits, fun n k e c hc => by
    rw [State.slot_setSlot] at hc
    split at hc
    · exact hv c hc
    · exact h.upgrades n k e c hc⟩
  runs k := by
    rw [State.slot_setSlot]
    split
    · rename_i same; exact same ▸ run
    · exact .refl
  slots k c hc hk := by
    rw [State.slot_setSlot, if_neg]
    rintro rfl
    exact hi c hc hk
  came k c hc hk := by
    rw [State.slot_setSlot] at hc
    split at hc
    · exact absurd hk (hv c hc)
    · exact hc
  waits _ _ hw _ := hw
  queue _ _ := .inl
  owed _ _ := .inl

theorem passes_pushMessage (h : Calm K s) {p : CPort} {m : Message} (hm : m.forOther K p) :
    Passes K s (s.pushMessage (.client p) m) where
  calm := ⟨h.booked, h.waits, h.upgrades⟩
  runs _ := .refl
  slots _ _ _ _ := rfl
  came _ _ hc _ := hc
  waits _ _ hw _ := hw
  queue q x hx := by
    rw [State.port_pushMessage] at hx
    split at hx
    · rename_i same
      obtain rfl : q = p := PortId.client.inj same
      rcases List.mem_append.1 hx with old | new
      · exact .inl old
      · exact .inr (List.mem_singleton.1 new ▸ hm)
    · exact .inl hx
  owed _ _ := .inl

theorem passes_joinOwed (h : Calm K s) {c : Client} (hc : ¬ K c) (r : Ref) : Passes K s (s.joinOwed c.port r) where
  calm := ⟨h.booked, h.waits, h.upgrades⟩
  runs _ := .refl
  slots _ _ _ _ := rfl
  came _ _ hc _ := hc
  waits _ _ hw _ := hw
  queue _ _ := .inl
  owed q x hx := by
    rw [State.owed_joinOwed] at hx
    split at hx
    · rename_i same; exact .inr ⟨c, hc, same.symm⟩
    · exact .inl hx

/-- A FREE wait entry becomes ENDED for a client outside `K`. -/
theorem passes_setWait_ended (h : Calm K s) {j : WaitNo} {w : Wait} (c : WaitCause) (hw : ¬ K w.client) :
    Passes K s (s.setWait j (.ended w c)) where
  calm := ⟨h.booked.setWait rfl, fun k x r i e => by
    rw [State.wait_setWait] at e
    split at e
    · exact absurd e WaitEntry.noConfusion
    · exact h.waits k x r i e, h.upgrades⟩
  runs _ := .refl
  slots _ _ _ _ := rfl
  came _ _ hc _ := hc
  waits k x hx hk := by
    rw [State.wait_setWait] at hx
    split at hx
    · exact absurd (Option.some.inj hx ▸ hk) hw
    · exact hx
  queue _ _ := .inl
  owed _ _ := .inl

/-- A QUEUED wait is over: its entry is FREE, and its slot takes a body of no client of `K`. -/
theorem passes_endBooking (h : Calm K s) {j : WaitNo} {w : Wait} {r : Limit} {i : SlotNo} {v : Slot}
    (hj : s.wait j = .queued w r i) (hv : ∀ c, v.body.client? = some c → ¬ K c)
    (kept : Kept s ((s.setSlot i v).setWait j .free)) : Passes K s ((s.setSlot i v).setWait j .free) := by
  obtain ⟨client, dead⟩ := SlotBody.client_of_reservedFor (h.booked.1 j w r i hj)
  have other := h.waits j w r i hj
  refine ⟨⟨kept.booked h.booked, fun k x l y e => ?_, fun n k e c hc => ?_⟩, fun k => ?_, fun k c hc hk => ?_,
    fun k c hc hk => ?_, fun k x hx _ => ?_, fun _ _ => .inl, fun _ _ => .inl⟩
  · rw [State.wait_setWait] at e
    split at e
    · exact absurd e WaitEntry.noConfusion
    · exact h.waits k x l y e
  · rw [State.setWait_slot, State.slot_setSlot] at hc
    split at hc
    · exact hv c hc
    · exact h.upgrades n k e c hc
  · rw [State.setWait_slot, State.slot_setSlot]
    split
    · rename_i same; exact same ▸ .of_not_live dead
    · exact .refl
  · rw [State.setWait_slot, State.slot_setSlot, if_neg]
    rintro rfl
    rw [client] at hc
    exact other (Option.some.inj hc ▸ hk)
  · rw [State.setWait_slot, State.slot_setSlot] at hc
    split at hc
    · exact absurd hk (hv c hc)
    · exact hc
  · rw [State.wait_setWait] at hx
    split at hx
    · exact absurd hx (Option.some_ne_none x).symm
    · exact hx

/-! ### Notices and ends -/

theorem Lease.runsOn_owing (o : Option Owed) (l : Lease) : l.RunsOn (l.owing o) := ⟨rfl, rfl, rfl⟩

theorem passes_setOwed (h : Calm K s) {i : SlotNo} (hi : ∀ c, (s.slot i).body.client? = some c → ¬ K c)
    (o : Option Owed) : Passes K s (s.setOwed i o) :=
  passes_setSlot (v := { s.slot i with body := (s.slot i).body.mapLease (Lease.owing o) }) h hi
    (fun c hc => hi c ((SlotBody.client_mapLease (f := Lease.owing o) (fun _ => rfl) _).symm.trans hc))
    (.of_map (Lease.runsOn_owing o) rfl (SlotBody.live_mapLease _)) fun _ => SlotBody.reservedFor_mapLease

/-- A notice is offered for a slot of a client outside `K`. -/
theorem passes_offer (h : Calm K s) {i : SlotNo} (hi : ∀ c, (s.slot i).body.client? = some c → ¬ K c) (k : Owed) :
    Passes K s (s.offer i k) := by
  simp only [State.offer]
  split
  · exact .refl h
  · rename_i l hl
    have other := hi _ (SlotBody.client_of_lease hl)
    split
    · exact passes_pushMessage h ⟨l.client, other, rfl, rfl⟩
    · split
      · have owing := passes_setOwed h hi (some k)
        exact owing.trans (passes_joinOwed owing.calm other _)
      · exact passes_setOwed h hi _

theorem passes_endWait (h : Calm K s) (cause : WaitCause) (j : WaitNo) : Passes K s (s.endWait cause j) := by
  simp only [State.endWait]
  split
  · rename_i w r i hj
    have other := h.waits j w r i hj
    have quit : Passes K s ((s.leaveQueue j w.resource i).setWait j .free) :=
      (passes_setRecord h (n := w.resource)
        (r := { s.record w.resource with queue := (s.record w.resource).queue.erase j }) fun _ e => e).trans <|
        passes_endBooking (s := s.setRecord w.resource _) (h.of_same rfl rfl fun n k e => by
            rw [State.record_setRecord] at e
            split at e
            · rename_i same; exact same ▸ e
            · exact e) hj (by simp [SlotBody.client?])
          (Kept.endBooking hj (by simp) (by simp) (by simp [SlotBody.occupant?]))
    split
    · exact quit.trans (passes_pushMessage quit.calm ⟨w.client, other, rfl, rfl⟩)
    · have ended := passes_setWait_ended quit.calm (j := j) cause other
      rw [State.setWait_setWait] at ended
      exact (quit.trans ended).trans (passes_joinOwed ended.calm other _)
  all_goals exact .refl h

theorem passes_exhaust (h : Calm K s) (n : ResNo) : Passes K s (s.exhaust n) := by
  simp only [State.exhaust]
  split
  · have spent := passes_setRecord h (n := n) (r := { s.record n with fenceSpent := true }) fun _ e => e
    exact spent.trans (Passes.foldl (fun t j calm => passes_endWait calm .fenceSpent j) _ spent.calm)
  · exact .refl h

/-! ### Grants -/

/-- The upgraded lease keeps its client, its resource and its term. -/
theorem passes_upgradeSlot (h : Calm K s) {i : SlotNo} {n : ResNo} (hi : (s.record n).upgradePending = some i) :
    Passes K s (s.upgradeSlot i n) := by
  have other := h.upgrades n i hi
  have cleared := passes_setRecord h (n := n)
    (r := { s.record n with upgradePending := none, lastSeq := (s.record n).lastSeq + 1 }) (by simp)
  have client := (SlotBody.client_mapLease (f := fun l => { l with mode := .exclusive, fence := s.nextFence n })
    (fun _ => rfl) (s.slot i).body.dropDeadline).trans (SlotBody.client_dropDeadline _)
  refine cleared.trans (passes_setSlot (s := s.setRecord n _) cleared.calm other
    (fun c hc => other c (client.symm.trans hc))
    (.of_map (f := fun l => { l with mode := .exclusive, fence := s.nextFence n }) (fun _ => ⟨rfl, rfl, rfl⟩) rfl ?_)
    fun w hw => SlotBody.reservedFor_mapLease ((SlotBody.alike_dropDeadline _).reservedFor w hw))
  rw [SlotBody.live_mapLease, SlotBody.live_dropDeadline]
  rfl

theorem passes_serveUpgrade (h : Calm K s) (n : ResNo) : Passes K s (s.serveUpgrade n) := by
  simp only [State.serveUpgrade]
  split
  · exact .refl h
  · rename_i i hi
    split
    · have upgraded := passes_upgradeSlot h hi
      have offered := passes_offer upgraded.calm (i := i) (fun c hc hk =>
        h.upgrades n i hi c (upgraded.came i c hc hk) hk) .upgraded
      exact (upgraded.trans offered).trans (passes_exhaust offered.calm n)
    · exact .refl h

/-- The head of the queue granted, before its notice (R60). -/
def State.grantedHead (s : State) (n : ResNo) (j : WaitNo) (w : Wait) (i : SlotNo) : State :=
  let s1 := s.grantSlot i n w.client w.mode (s.slot i).body.requestedTerm
  (s1.setRecord n { s1.record n with queue := (s1.record n).queue.erase j }).setWait j .free

theorem State.grantWait_eq (s : State) (n : ResNo) (j : WaitNo) (w : Wait) (i : SlotNo) :
    s.grantWait n j w i = ((s.grantedHead n j w i).offer i (.granted w.rid)).exhaust n := rfl

theorem State.pending_grantedHead (s : State) (n : ResNo) (j : WaitNo) (w : Wait) (i : SlotNo) (k : ResNo) :
    ((s.grantedHead n j w i).record k).upgradePending = (s.record k).upgradePending := by
  simp only [State.grantedHead, State.grantSlot, State.setWait_record, State.record_setRecord, if_true]
  split
  · rename_i same; rw [same]
  · rfl

theorem passes_grantedHead (h : Calm K s) {j : WaitNo} {w : Wait} {r : Limit} {i : SlotNo}
    (hj : s.wait j = .queued w r i) (n : ResNo) : Passes K s (s.grantedHead n j w i) := by
  obtain ⟨silent, settled, counts⟩ := s.grantedSlot_body i n w.client w.mode (s.slot i).body.requestedTerm
  have client : (s.grantedSlot i n w.client w.mode (s.slot i).body.requestedTerm).body.client? = some w.client := rfl
  have booking := passes_endBooking h hj
    (fun c hc => (Option.some.inj (client.symm.trans hc) : w.client = c) ▸ h.waits j w r i hj)
    (Kept.endBooking hj silent settled fun c x => by rw [counts] at x; exact (Option.some.inj x).symm)
  exact booking.trans (.of_same booking.calm rfl rfl
    (fun k x e => (s.pending_grantedHead n j w i k).symm.trans e) (fun _ => rfl) rfl)

theorem passes_grantWait (h : Calm K s) {j : WaitNo} {w : Wait} {r : Limit} {i : SlotNo} (hj : s.wait j = .queued w r i)
    (n : ResNo) : Passes K s (s.grantWait n j w i) := by
  have granted := passes_grantedHead h hj n
  have offered := passes_offer granted.calm (i := i) (fun c hc hk => by
    have before := granted.came i c hc hk
    rw [(SlotBody.client_of_reservedFor (h.booked.1 j w r i hj)).1] at before
    exact h.waits j w r i hj (Option.some.inj before ▸ hk)) (.granted w.rid)
  rw [State.grantWait_eq]
  exact (granted.trans offered).trans (passes_exhaust offered.calm n)

theorem passes_grantHead (h : Calm K s) {n : ResNo} (e : s.grantHead? n = some t) : Passes K s t := by
  simp only [State.grantHead?] at e
  split at e
  · simp at e
  · split at e
    · rename_i hj
      split at e
      · obtain rfl := Option.some.inj e
        exact passes_grantWait h hj n
      · simp at e
    all_goals simp at e

theorem passes_grantHeads (h : Calm K s) (fuel : Nat) (n : ResNo) : Passes K s (State.grantHeads fuel n s) := by
  induction fuel generalizing s with
  | zero => exact .refl h
  | succ k ih =>
    simp only [State.grantHeads]
    split
    · exact .refl h
    · rename_i e
      have granted := passes_grantHead h e
      exact granted.trans (ih granted.calm)

theorem passes_serve (h : Calm K s) (n : ResNo) : Passes K s (s.serve n) :=
  have upgraded := passes_serveUpgrade h n
  upgraded.trans (passes_grantHeads upgraded.calm _ n)

theorem passes_recheck (h : Calm K s) (n : ResNo) (image : Entry) : Passes K s (s.recheck n image) := by
  refine Passes.foldl (fun t j calm => ?_) _ h
  split
  · exact passes_endWait calm _ _
  · exact .refl calm

theorem passes_offerActivated (h : Calm K s) : Passes K s s.offerActivated := by
  simp only [State.offerActivated]
  split
  · split
    · exact .of_same h rfl rfl (fun _ _ e => e) (fun q => by simp [State.port_pushMessage]) rfl
    · exact .refl h
  · exact .refl h

theorem passes_applyPending (h : Calm K s) (n : ResNo) (image : Entry) : Passes K s (s.applyPending n image) := by
  have inForce : Passes K s (s.putInForce n image) :=
    .of_same h rfl rfl (fun k i e => by
      simp only [State.putInForce, State.record_setRecord] at e
      split at e
      · rename_i same; exact same ▸ e
      · exact e) (fun _ => rfl) rfl
  have checked := inForce.trans (passes_recheck inForce.calm n image)
  simp only [State.applyPending]
  generalize markApplied n _ _ = l
  have listed : Passes K s (((s.putInForce n image).recheck n image).setActivations l) :=
    checked.trans (.of_same checked.calm rfl rfl (fun _ _ e => e) (fun _ => rfl) rfl)
  have served := listed.trans (passes_serve listed.calm n)
  exact served.trans (passes_offerActivated served.calm)

/-- The grant rule passes by the clients that neither wait nor have an upgrade pending (R59). -/
theorem passes_grantRule (h : Calm K s) (n : ResNo) : Passes K s (s.grantRule n) := by
  simp only [State.grantRule]
  split
  · split
    · split
      · exact passes_applyPending h n _
      · exact .refl h
    · exact .refl h
  · exact passes_serve h n

theorem passes_grantRules (h : Calm K s) (ns : List ResNo) : Passes K s (s.grantRules ns) :=
  Passes.foldl (fun _ n calm => passes_grantRule calm n) ns h

end Sys2Proof.Machine
end

section
/-! PROOFS. What DETACH, PURGE_CLIENT and RESET_PORT do before the grant rule runs: records come to nothing, one after
the other, and the leases that they do not end run on (R112, R116, R117, R132). -/

namespace Sys2Proof.Machine

/-! ### Records that come to nothing -/

/-- A slot's new body has no other client than its old one, and is live only if the old one was, owing nothing where
that owed nothing. -/
structure SlotBody.Fades (a b : SlotBody) : Prop where
  client : ∀ c, b.client? = some c → a.client? = some c
  live : ∀ x, b.live? = some x → ∃ l, a.live? = some l ∧ x.client = l.client ∧ (l.owed = none → x.owed = none)

theorem SlotBody.Fades.refl {a : SlotBody} : a.Fades a := ⟨fun _ => id, fun x h => ⟨x, h, rfl, id⟩⟩

theorem SlotBody.Fades.trans {a b c : SlotBody} (h : a.Fades b) (k : b.Fades c) : a.Fades c := by
  refine ⟨fun d e => h.client d (k.client d e), fun x e => ?_⟩
  obtain ⟨y, hy, cy, oy⟩ := k.live x e
  obtain ⟨l, hl, cl, ol⟩ := h.live y hy
  exact ⟨l, hl, cy.trans cl, fun none => oy (ol none)⟩

theorem SlotBody.fades_free {a : SlotBody} : a.Fades .free := ⟨by simp [SlotBody.client?], by simp [SlotBody.live?]⟩

theorem SlotBody.fades_owing (a : SlotBody) : a.Fades (a.mapLease (Lease.owing none)) := by
  refine ⟨fun c h => (SlotBody.client_mapLease (f := Lease.owing none) (fun _ => rfl) a).symm.trans h, fun x h => ?_⟩
  rw [SlotBody.live_mapLease] at h
  obtain ⟨l, hl, rfl⟩ := Option.map_eq_some_iff.1 h
  exact ⟨l, hl, rfl, fun _ => rfl⟩

theorem SlotBody.fades_dropDeadline (a : SlotBody) : a.Fades a.dropDeadline :=
  ⟨fun _ h => a.client_dropDeadline.symm.trans h, fun x h => ⟨x, a.live_dropDeadline.symm.trans h, rfl, id⟩⟩

/-- From `s` to `t` slots and wait entries come to nothing, no owed list gains a record, and the leases of the slots
outside `ls` run on. -/
structure Fades (ls : List SlotNo) (s t : State) : Prop where
  body : ∀ i, (s.slot i).body.Fades (t.slot i).body
  wait : ∀ j, t.wait j = s.wait j ∨ t.wait j = .free
  owed : ∀ p, (t.side p).owed ⊆ (s.side p).owed
  booked : s.booked → t.booked
  runs : s.booked → ∀ k ∉ ls, (s.slot k).RunsOn (t.slot k)

variable {ls : List SlotNo} {s t u : State}

theorem Fades.refl : Fades ls s s := ⟨fun _ => .refl, fun _ => .inl rfl, fun _ => List.Subset.refl _, id,
  fun _ _ _ => .refl⟩

theorem Fades.trans (h : Fades ls s t) (k : Fades ls t u) : Fades ls s u where
  body i := (h.body i).trans (k.body i)
  wait j := (k.wait j).elim (fun e => (h.wait j).imp e.trans e.trans) .inr
  owed p := List.Subset.trans (k.owed p) (h.owed p)
  booked b := k.booked (h.booked b)
  runs b i hi := (h.runs b i hi).trans (k.runs (h.booked b) i hi)

theorem Fades.foldl {α : Type} {f : State → α → State} {l : List α} (hf : ∀ t, ∀ a ∈ l, Fades ls t (f t a))
    (s : State) : Fades ls s (l.foldl f s) := by
  induction l generalizing s with
  | nil => exact .refl
  | cons a l ih =>
    exact (hf s a List.mem_cons_self).trans (ih (fun t b hb => hf t b (List.mem_cons_of_mem _ hb)) _)

theorem Fades.queued (h : Fades ls s t) {j : WaitNo} {w : Wait} (e : (t.wait j).queued? = some w) :
    (s.wait j).queued? = some w := by
  rcases h.wait j with same | free
  · rwa [same] at e
  · rw [free] at e
    exact absurd e (Option.some_ne_none w).symm

theorem Fades.info (h : Fades ls s t) {j : WaitNo} {w : Wait} (e : (t.wait j).info? = some w) :
    (s.wait j).info? = some w := by
  rcases h.wait j with same | free
  · rwa [same] at e
  · rw [free] at e
    exact absurd e (Option.some_ne_none w).symm

/-- A record of a client was the client's before. -/
theorem Fades.refClient (h : Fades ls s t) {r : Ref} {c : Client} (e : t.refClient r = some c) :
    s.refClient r = some c := by
  cases r with
  | slot i => exact (h.body i).client c e
  | wait j =>
    obtain ⟨w, hw, hc⟩ := Option.map_eq_some_iff.1 e
    exact Option.map_eq_some_iff.2 ⟨w, h.info hw, hc⟩

/-! ### Updates -/

/-- Slots, wait entries and owed lists are as they were. -/
theorem Fades.of_same (hs : t.slots = s.slots) (hw : t.waits = s.waits) (hd : t.sides = s.sides) : Fades ls s t where
  body i := by rw [State.slot, State.slot, hs]; exact .refl
  wait j := .inl (by rw [State.wait, State.wait, hw])
  owed p := by rw [State.side, State.side, hd]; exact List.Subset.refl _
  booked := (Kept.of_same hs hw fun p => by rw [State.side, State.side, hd]).booked
  runs _ k _ := by rw [State.slot, State.slot, hs]; exact .refl

theorem fades_leaveOwed (s : State) (p : CPort) (r : Ref) : Fades ls s (s.leaveOwed p r) where
  body _ := .refl
  wait _ := .inl rfl
  owed q := by
    rw [State.owed_leaveOwed]
    split
    · exact List.erase_subset
    · exact List.Subset.refl _
  booked := id
  runs _ _ _ := .refl

theorem fades_setSlot {i : SlotNo} {v : Slot} (hf : (s.slot i).body.Fades v.body)
    (hb : ∀ w, (s.slot i).body.reservedFor w → v.body.reservedFor w)
    (run : i ∈ ls ∨ (s.slot i).RunsOn v) : Fades ls s (s.setSlot i v) where
  body k := by
    rw [State.slot_setSlot]
    split
    · rename_i same; exact same ▸ hf
    · exact .refl
  wait _ := .inl rfl
  owed _ := List.Subset.refl _
  booked b := b.setSlot hb
  runs _ k hk := by
    rw [State.slot_setSlot]
    split
    · rename_i same
      subst same
      exact run.resolve_left hk
    · exact .refl

/-- A lease of the list ends. -/
theorem fades_freeSlot {i : SlotNo} {l : Lease} (hi : i ∈ ls) (h : (s.slot i).body.live? = some l) :
    Fades ls s (s.freeSlot i) :=
  fades_setSlot (v := { generation := (s.slot i).generation + 1, body := .free }) SlotBody.fades_free
    (fun w hw => absurd hw (SlotBody.not_reservedFor_of_lease (SlotBody.lease_of_live h) w)) (.inl hi)

theorem fades_freeWait (s : State) (j : WaitNo) : Fades ls s (s.setWait j .free) where
  body _ := .refl
  wait k := by
    rw [State.wait_setWait]
    split
    · exact .inr rfl
    · exact .inl rfl
  owed _ := List.Subset.refl _
  booked b := b.setWait rfl
  runs _ _ _ := .refl

/-! ### Withdrawals (R112) -/

/-- The slot after a withdrawal: FREE if it was ENDED, and owing nothing otherwise. -/
theorem State.dropOwed_slot_cases (s : State) (i : SlotNo) :
    (s.dropOwed (.slot i) = s.freeSlot i ∧ (s.slot i).body.live? = none ∧ ∀ w, ¬ (s.slot i).body.reservedFor w)
      ∨ s.dropOwed (.slot i) = s.setOwed i none := by
  cases e : (s.slot i).body with
  | ended l g c => exact .inl ⟨by simp only [State.dropOwed, e], rfl, fun _ => id⟩
  | _ => exact .inr (by simp only [State.dropOwed, e])

theorem fades_dropOwed (s : State) (r : Ref) : Fades ls s (s.dropOwed r) := by
  cases r with
  | slot i =>
    rcases s.dropOwed_slot_cases i with ⟨freed, dead, unbooked⟩ | owing
    · rw [freed]
      exact fades_setSlot SlotBody.fades_free (fun w h => absurd h (unbooked w)) (.inr (.of_not_live dead))
    · rw [owing]
      exact fades_setSlot (v := { s.slot i with body := (s.slot i).body.mapLease (Lease.owing none) })
        (SlotBody.fades_owing _) (fun _ => SlotBody.reservedFor_mapLease)
        (.inr (.of_map (Lease.runsOn_owing none) rfl (SlotBody.live_mapLease _)))
  | wait j =>
    simp only [State.dropOwed]
    split
    · exact fades_freeWait s j
    all_goals exact .refl

theorem fades_withdraw (s : State) (p : CPort) (r : Ref) : Fades ls s (s.withdraw p r) :=
  (fades_leaveOwed s p r).trans (fades_dropOwed _ r)

theorem fades_withdrawAll (s : State) (p : CPort) (refs : List Ref) : Fades ls s (s.withdrawAll p refs) :=
  .foldl (fun t r _ => fades_withdraw t p r) s

/-! ### Ends (R32, R33, R51, R52, R69) -/

/-- A QUEUED wait is over: its entry and its slot are FREE. -/
theorem fades_endBooking {j : WaitNo} {w : Wait} {r : Limit} {i : SlotNo} (h : s.wait j = .queued w r i) (n : ResNo) :
    Fades ls s ((s.leaveQueue j n i).setWait j .free) where
  body k := by
    rw [State.setWait_slot, State.slot_leaveQueue]
    split
    · exact SlotBody.fades_free
    · exact .refl
  wait k := (fades_freeWait (ls := ls) (s.leaveQueue j n i) j).wait k
  owed _ := List.Subset.refl _
  booked := (tidy_leaveQueue h n).booked
  runs b k _ := by
    rw [State.setWait_slot, State.slot_leaveQueue]
    split
    · rename_i same
      exact .of_not_live (same ▸ (SlotBody.client_of_reservedFor (b.1 j w r i h)).2)
    · exact .refl

theorem fades_endWaitQuiet (s : State) (j : WaitNo) : Fades ls s (s.endWaitQuiet j) := by
  simp only [State.endWaitQuiet]
  split
  · exact fades_endBooking ‹_› _
  all_goals exact .refl

theorem fades_endWaitPurged (s : State) (j : WaitNo) : Fades ls s (s.endWaitPurged j) := by
  simp only [State.endWaitPurged]
  split
  · rename_i w r i h
    split
    · exact (fades_endBooking h w.resource).trans (t := (s.leaveQueue j w.resource i).setWait j .free)
        (.of_same rfl rfl rfl)
    · exact fades_endBooking h _
  all_goals exact .refl

theorem fades_clearUpgrade (s : State) (n : ResNo) : Fades ls s (s.clearUpgrade n) := by
  simp only [State.clearUpgrade]
  split
  · exact .refl
  · rename_i i _
    refine Fades.trans (t := s.setRecord n _) (.of_same rfl rfl rfl) (fades_setSlot (SlotBody.fades_dropDeadline _)
      (SlotBody.alike_dropDeadline _).reservedFor (.inr fun l hl => ⟨rfl, l, ?_, rfl, rfl, rfl⟩))
    exact (SlotBody.live_dropDeadline _).trans hl

theorem fades_endLeaseQuiet {i : SlotNo} (hi : i ∈ ls) (s : State) : Fades ls s (s.endLeaseQuiet i) := by
  simp only [State.endLeaseQuiet]
  split
  · exact .refl
  · rename_i l hl
    have left : Fades ls s (s.leaveHolders i l.resource) := .of_same rfl rfl rfl
    exact left.trans ((fades_leaveOwed _ _ _).trans (fades_freeSlot hi hl))

theorem fades_endLeasePurged {i : SlotNo} (hi : i ∈ ls) (s : State) : Fades ls s (s.endLeasePurged i) := by
  simp only [State.endLeasePurged]
  split
  · exact .refl
  · rename_i l hl
    have left : Fades ls s (s.leaveHolders i l.resource) := .of_same rfl rfl rfl
    split
    · exact left.trans (Fades.trans (t := (s.leaveHolders i l.resource).pushMessage _ _) (.of_same rfl rfl rfl)
        (fades_freeSlot hi hl))
    · exact left.trans ((fades_leaveOwed _ _ _).trans (fades_freeSlot hi hl))

theorem fades_endWaitsQuiet (s : State) (js : List WaitNo) : Fades ls s (s.endWaitsQuiet js) :=
  .foldl (fun t j _ => fades_endWaitQuiet t j) s

theorem fades_clearUpgrades (s : State) (ns : List ResNo) : Fades ls s (s.clearUpgrades ns) :=
  .foldl (fun t n _ => fades_clearUpgrade t n) s

theorem fades_endLeasesQuiet (s : State) : Fades ls s (s.endLeasesQuiet ls) :=
  .foldl (fun t _ hi => fades_endLeaseQuiet hi t) s

/-! ### What has ended stays ended -/

/-- What each step of a list brings about, and no later step undoes, holds at the end. -/
theorem foldl_brings {α : Type} {f : State → α → State} {P : α → State → Prop} (brings : ∀ t a, P a (f t a))
    (stays : ∀ t a b, P a t → P a (f t b)) {l : List α} {a : α} (ha : a ∈ l) (s : State) : P a (l.foldl f s) := by
  have keeps : ∀ (l : List α) (t : State), P a t → P a (l.foldl f t) := fun l => by
    induction l with
    | nil => exact fun _ => id
    | cons b l ih => exact fun t h => ih _ (stays t a b h)
  induction l generalizing s with
  | nil => exact absurd ha List.not_mem_nil
  | cons b l ih =>
    rcases List.mem_cons.1 ha with rfl | rest
    · exact keeps l _ (brings s a)
    · exact ih rest _

theorem Fades.not_queued (h : Fades ls s t) {j : WaitNo} (e : (s.wait j).queued? = none) :
    (t.wait j).queued? = none := by
  rcases h.wait j with same | free
  · rwa [same]
  · rw [free]; rfl

theorem Fades.not_live (h : Fades ls s t) {i : SlotNo} (e : (s.slot i).body.live? = none) :
    (t.slot i).body.live? = none := by
  cases live : (t.slot i).body.live? with
  | none => rfl
  | some x =>
    obtain ⟨l, hl, -⟩ := (h.body i).live x live
    rw [e] at hl
    exact absurd hl (Option.some_ne_none l).symm

/-- Ends of waits, quiet or purged, leave none of them QUEUED. -/
theorem not_queued_of_ends {f : State → WaitNo → State} (hf : ∀ t j, (f t j).ledger = t.ledger.endWait j)
    (fades : ∀ t j, Fades [] t (f t j)) {js : List WaitNo} {j : WaitNo} (hj : j ∈ js) (s : State) :
    ((js.foldl f s).wait j).queued? = none := by
  refine foldl_brings (P := fun j t => (t.wait j).queued? = none) (fun t k => ?_)
    (fun t k b h => (fades t b).not_queued h) hj s
  rw [WaitEntry.claim_queued, ← State.ledger_claim, hf]
  cases claim : t.ledger.claim k with
  | none => rw [Ledger.endWait_of_none claim, claim]; rfl
  | some x => rw [Ledger.endWait_of_claim claim, Ledger.setClaim_claim, if_pos rfl]; rfl

/-- Ends of leases, quiet or purged, leave none of them live. -/
theorem not_live_of_ends {f : State → SlotNo → State} (hf : ∀ t i, (f t i).ledger = t.ledger.endLease i)
    (fades : ∀ t i, Fades [i] t (f t i)) {is : List SlotNo} {i : SlotNo} (hi : i ∈ is) (s : State) :
    ((is.foldl f s).slot i).body.live? = none := by
  refine foldl_brings (P := fun i t => (t.slot i).body.live? = none) (fun t k => ?_)
    (fun t k b h => (fades t b).not_live h) hi s
  have off : ((f t k).ledger.role k).on? = none := by
    rw [hf]
    cases on : (t.ledger.role k).on? with
    | none => rw [Ledger.endLease_of_none on, on]
    | some n => rw [Ledger.endLease_of_on on, Ledger.setRole_role, if_pos rfl]; rfl
  rw [State.ledger_role, SlotBody.role_on] at off
  exact Option.map_eq_none_iff.1 off

/-! ### Clients with nothing left -/

/-- A state with no QUEUED wait and no owed record of the clients of `K` has nothing of theirs but live leases: an ENDED
slot or wait entry owes its notice, and a RESERVED slot has its QUEUED wait (R33, R46, R52). -/
theorem nothing_but_live {K : Client → Prop} (lease : leaseLaw s) (owed : owedLaw s)
    (waits : ∀ j w, (s.wait j).queued? = some w → ¬ K w.client)
    (silent : ∀ c, K c → ∀ r ∈ (s.side c.port).owed, s.refClient r ≠ some c) :
    (∀ i c, (s.slot i).body.live? = none → (s.slot i).body.client? = some c → ¬ K c)
      ∧ ∀ j w, (s.wait j).info? = some w → ¬ K w.client := by
  refine ⟨fun i c dead hc hk => ?_, fun j w hw hk => ?_⟩
  · cases e : (s.slot i).body with
    | free => simp [e, SlotBody.client?] at hc
    | reserved r =>
      obtain ⟨j, hj⟩ := lease.2.2.2 i r e
      cases ej : s.wait j with
      | queued w x k =>
        obtain rfl : k = i := Option.some.inj (by rw [← hj, ej]; rfl)
        have booking := (SlotBody.client_of_reservedFor ((booked_of_leaseLaw lease).1 j w x k ej)).1
        rw [hc] at booking
        exact waits j w (by rw [ej]; rfl) (Option.some.inj booking ▸ hk)
      | _ => simp [ej, WaitEntry.reserves] at hj
    | active l d => simp [e, SlotBody.live?] at dead
    | revoking l g => simp [e, SlotBody.live?] at dead
    | ended l g cause =>
      have mine : l.client = c := by simpa [e, SlotBody.client?] using hc
      have owes : s.owesOn c.port (.slot i) :=
        ⟨l, by rw [e]; rfl, by rw [mine], by rw [owed.2 i l g cause e]; exact Option.some_ne_none _⟩
      exact silent c hk _ (((owed.1 c.port).2 _).2 owes) hc
  · cases e : s.wait j with
    | free => simp [e, WaitEntry.info?] at hw
    | queued x r i =>
      obtain rfl : x = w := by simpa [e, WaitEntry.info?] using hw
      exact waits j x (by rw [e]; rfl) hk
    | ended x cause =>
      obtain rfl : x = w := by simpa [e, WaitEntry.info?] using hw
      have owes : s.owesOn x.client.port (.wait j) := ⟨x, cause, e, rfl⟩
      exact silent x.client hk _ (((owed.1 _).2 _).2 owes) (by rw [State.refClient, e]; rfl)

/-- Withdrawn records leave the owed list of the port (R112). -/
theorem State.mem_owed_withdrawAll {p : CPort} {refs : List Ref} (nodup : (s.side p).owed.Nodup) {r : Ref}
    (h : r ∈ ((s.withdrawAll p refs).side p).owed) : r ∉ refs := by
  induction refs generalizing s with
  | nil => exact List.not_mem_nil
  | cons x rest ih =>
    have left := s.owed_withdraw p x
    have later := ih (s := s.withdraw p x) (left ▸ nodup.erase x) h
    rintro mem
    rcases List.mem_cons.1 mem with rfl | mem
    · have here := (fades_withdrawAll (ls := []) (s.withdraw p r) p rest).owed p h
      rw [left] at here
      exact (nodup.mem_erase_iff.1 here).1 rfl
    · exact later mem

/-- The other records stay on it, in their order. -/
theorem State.mem_withdrawAll_of {p : CPort} {refs : List Ref} {r : Ref} (listed : r ∈ (s.side p).owed)
    (other : r ∉ refs) : r ∈ ((s.withdrawAll p refs).side p).owed := by
  induction refs generalizing s with
  | nil => exact listed
  | cons x rest ih =>
    rw [List.mem_cons, not_or] at other
    refine ih (s := s.withdraw p x) ?_ other.2
    rw [State.owed_withdraw]
    exact (List.mem_erase_of_ne other.1).2 listed

end Sys2Proof.Machine
end

section
/-! PROOFS. Clients with nothing left: after the ends of DETACH, PURGE_CLIENT and RESET_PORT, and through the grant
rules and the deliveries that follow (R112, R114, R116, R117, R132). -/

namespace Sys2Proof.Machine

variable {K : Client → Prop} {s t u : State} {ls : List SlotNo}

/-! ### Nothing left -/

/-- No slot and no wait entry, in any state, is of a client of `K`. -/
structure Gone (K : Client → Prop) (s : State) : Prop where
  slots : ∀ i c, (s.slot i).body.client? = some c → ¬ K c
  waits : ∀ j w, (s.wait j).info? = some w → ¬ K w.client

theorem Gone.calm (h : Gone K s) (booked : s.booked) : Calm K s :=
  ⟨booked, fun j w r i e => h.waits j w (by rw [e]; rfl), fun _ i _ c => h.slots i c⟩

theorem Gone.passes (h : Gone K s) (k : Passes K s t) : Gone K t :=
  ⟨fun i c hc hk => h.slots i c (k.came i c hc hk) hk, fun j w hw hk => h.waits j w (k.waits j w hw hk) hk⟩

theorem Gone.refClient (h : Gone K s) {r : Ref} {c : Client} (e : s.refClient r = some c) : ¬ K c := by
  cases r with
  | slot i => exact h.slots i c e
  | wait j =>
    obtain ⟨w, hw, rfl⟩ := Option.map_eq_some_iff.1 e
    exact h.waits j w hw

/-- No record of a client of `K` stands on its port's owed list. -/
def State.silent (K : Client → Prop) (s : State) : Prop :=
  ∀ c, K c → ∀ r ∈ (s.side c.port).owed, s.refClient r ≠ some c

theorem State.silent.fades (h : s.silent K) (k : Fades ls s t) : t.silent K := fun c hc r hr e =>
  h c hc r (k.owed _ hr) (k.refClient e)

/-- Once their waits have ended, and nothing is owed to them, the clients of `K` have nothing but live leases. -/
theorem Fades.nothing_but_live (fades : Fades ls s t) (lease : leaseLaw t) (owed : owedLaw t) (silent : s.silent K)
    (waits : ∀ j w, (s.wait j).queued? = some w → K w.client → (t.wait j).queued? = none) :
    (∀ i c, (t.slot i).body.live? = none → (t.slot i).body.client? = some c → ¬ K c)
      ∧ ∀ j w, (t.wait j).info? = some w → ¬ K w.client := by
  refine Machine.nothing_but_live lease owed (fun j w hw hk => ?_) (silent.fades fades)
  rw [waits j w (fades.queued hw) hk] at hw
  exact Option.some_ne_none w hw.symm

/-- Once their leases have ended too, they have nothing. -/
theorem Fades.gone (fades : Fades ls s t) (lease : leaseLaw t) (owed : owedLaw t) (silent : s.silent K)
    (waits : ∀ j w, (s.wait j).queued? = some w → K w.client → (t.wait j).queued? = none)
    (leases : ∀ i l, (s.slot i).body.live? = some l → K l.client → (t.slot i).body.live? = none) : Gone K t := by
  obtain ⟨dead, entries⟩ := fades.nothing_but_live lease owed silent waits
  refine ⟨fun i c hc hk => ?_, entries⟩
  cases live : (t.slot i).body.live? with
  | none => exact dead i c live hc hk
  | some x =>
    obtain ⟨l, hl, same, -⟩ := (fades.body i).live x live
    have mine : x.client = c := Option.some.inj ((SlotBody.client_of_live live).symm.trans hc)
    rw [leases i l hl (by rwa [← same, mine])] at live
    exact Option.some_ne_none x live.symm

/-! ### The lease law at the ends -/

theorem leaseLaw_of_ledger (h : t.ledger = s.ledger) (lease : leaseLaw s) : leaseLaw t := by
  rw [leaseLaw_iff, h]
  exact leaseLaw_iff.1 lease

theorem leaseLaw_of_endWait {j : WaitNo} (h : t.ledger = s.ledger.endWait j) (lease : leaseLaw s) : leaseLaw t := by
  rw [leaseLaw_iff, h]
  exact (leaseLaw_iff.1 lease).endWait j

theorem leaseLaw_of_endLease {i : SlotNo} (h : t.ledger = s.ledger.endLease i) (lease : leaseLaw s) : leaseLaw t := by
  rw [leaseLaw_iff, h]
  exact (leaseLaw_iff.1 lease).endLease i

theorem leaseLaw_clearUpgrade (n : ResNo) (lease : leaseLaw s) : leaseLaw (s.clearUpgrade n) :=
  leaseLaw_iff.2 (moves_clearUpgrade (ns := [n]) List.mem_cons_self (leaseLaw_iff.1 lease)).1

/-- The ends that DETACH and RESET_PORT share, with no notice. -/
def State.endAll (s : State) (js : List WaitNo) (ns : List ResNo) (ls : List SlotNo) : State :=
  ((s.endWaitsQuiet js).clearUpgrades ns).endLeasesQuiet ls

theorem fades_endAll (s : State) (js : List WaitNo) (ns : List ResNo) : Fades ls s (s.endAll js ns ls) :=
  (fades_endWaitsQuiet s js).trans ((fades_clearUpgrades _ ns).trans (fades_endLeasesQuiet _))

theorem tidy_endAll (s : State) (js : List WaitNo) (ns : List ResNo) : Tidy s (s.endAll js ns ls) :=
  (tidy_endWaitsQuiet js).trans ((tidy_clearUpgrades ns).trans (tidy_endLeasesQuiet ls))

theorem leaseLaw_endAll (js : List WaitNo) (ns : List ResNo) (ls : List SlotNo) (lease : leaseLaw s) :
    leaseLaw (s.endAll js ns ls) :=
  have waits : leaseLaw (s.endWaitsQuiet js) :=
    List.foldlRecOn js _ lease fun t h j _ => leaseLaw_of_endWait (ledger_endWaitQuiet t j) h
  have upgrades : leaseLaw ((s.endWaitsQuiet js).clearUpgrades ns) :=
    List.foldlRecOn ns _ waits fun _ h n _ => leaseLaw_clearUpgrade n h
  List.foldlRecOn ls _ upgrades fun t h i _ => leaseLaw_of_endLease (ledger_endLeaseQuiet t i) h

theorem not_queued_endAll {js : List WaitNo} {j : WaitNo} (hj : j ∈ js) (s : State) (ns : List ResNo)
    (ls : List SlotNo) : ((s.endAll js ns ls).wait j).queued? = none :=
  ((fades_clearUpgrades _ ns).trans (fades_endLeasesQuiet (ls := ls) _)).not_queued
    (not_queued_of_ends ledger_endWaitQuiet fades_endWaitQuiet hj s)

theorem not_live_endAll {i : SlotNo} (hi : i ∈ ls) (s : State) (js : List WaitNo) (ns : List ResNo) :
    ((s.endAll js ns ls).slot i).body.live? = none :=
  not_live_of_ends ledger_endLeaseQuiet (fun t _ => fades_endLeaseQuiet (List.mem_singleton_self _) t) hi _

theorem ports_foldl_same {α : Type} {f : State → α → State} (hf : ∀ t a, (f t a).ports = t.ports) (l : List α)
    (s : State) : (l.foldl f s).ports = s.ports := by
  induction l generalizing s with
  | nil => rfl
  | cons a l ih => rw [List.foldl_cons, ih, hf]

theorem ports_dropOwed_same (s : State) (r : Ref) : (s.dropOwed r).ports = s.ports := by
  cases r <;> simp only [State.dropOwed] <;> split <;> rfl

theorem ports_withdrawAll_same (s : State) (p : CPort) (refs : List Ref) :
    (s.withdrawAll p refs).ports = s.ports :=
  ports_foldl_same (fun t r => ports_dropOwed_same (t.leaveOwed p r) r) refs s

/-- The quiet ends queue no notice. -/
theorem ports_endAll_same (s : State) (js : List WaitNo) (ns : List ResNo) (ls : List SlotNo) :
    (s.endAll js ns ls).ports = s.ports := by
  have waits (t : State) (j : WaitNo) : (t.endWaitQuiet j).ports = t.ports := by
    simp only [State.endWaitQuiet]
    split <;> rfl
  have upgrades (t : State) (n : ResNo) : (t.clearUpgrade n).ports = t.ports := by
    simp only [State.clearUpgrade]
    split <;> rfl
  have leases (t : State) (i : SlotNo) : (t.endLeaseQuiet i).ports = t.ports := by
    simp only [State.endLeaseQuiet]
    split <;> rfl
  exact (ports_foldl_same leases ls _).trans ((ports_foldl_same upgrades ns _).trans (ports_foldl_same waits js s))

/-! ### The client's records are withdrawn (R112) -/

/-- Withdrawn, the client's records stand on its port's owed list no more. -/
theorem silent_withdrawAll {c : Client} (owed : owedLaw s) : (s.withdrawAll c.port (s.owedOf c)).silent (· = c) := by
  rintro d rfl r hr e
  have fades := fades_withdrawAll (ls := []) s d.port (s.owedOf d)
  refine State.mem_owed_withdrawAll (owed.1 d.port).1 hr ?_
  exact List.mem_filter.2 ⟨fades.owed _ hr, decide_eq_true (fades.refClient e)⟩

/-- A withdrawal leaves every wait QUEUED and every lease live that was. -/
theorem State.queued_withdrawAll (s : State) (p : CPort) (refs : List Ref) (j : WaitNo) :
    ((s.withdrawAll p refs).wait j).queued? = (s.wait j).queued? := by
  rw [WaitEntry.claim_queued, WaitEntry.claim_queued, ← State.ledger_claim, ← State.ledger_claim, ledger_withdrawAll]

theorem State.liveClient_withdrawAll (booked : s.booked) (p : CPort) (refs : List Ref) (i : SlotNo) :
    ((s.withdrawAll p refs).slot i).body.live?.map Lease.client = (s.slot i).body.live?.map Lease.client := by
  have fades := fades_withdrawAll (ls := []) s p refs
  cases live : (s.slot i).body.live? with
  | none => rw [fades.not_live live]
  | some l =>
    obtain ⟨-, x, hx, client, -⟩ := fades.runs booked i List.not_mem_nil l live
    rw [hx, Option.map_some, Option.map_some, client]

theorem State.waitsOf_withdrawAll (s : State) (p : CPort) (refs : List Ref) (c : Client) :
    (s.withdrawAll p refs).waitsOf c = s.waitsOf c := by
  simp only [State.waitsOf, State.queued_withdrawAll]

theorem State.leasesOf_withdrawAll (booked : s.booked) (p : CPort) (refs : List Ref) (c : Client) :
    (s.withdrawAll p refs).leasesOf c = s.leasesOf c := by
  simp only [State.leasesOf, State.liveClient_withdrawAll booked]

theorem State.mem_waitsOf {c : Client} {j : WaitNo} :
    j ∈ s.waitsOf c ↔ ∃ w, (s.wait j).queued? = some w ∧ w.client = c := by
  simp [State.waitsOf, allWaits]

theorem State.mem_leasesOf {c : Client} {i : SlotNo} :
    i ∈ s.leasesOf c ↔ ∃ l, (s.slot i).body.live? = some l ∧ l.client = c := by
  simp [State.leasesOf, allSlots]

/-! ### Deliveries (R114) -/

theorem passes_leaveOwed (h : Calm K s) (p : CPort) (r : Ref) : Passes K s (s.leaveOwed p r) where
  calm := ⟨h.booked, h.waits, h.upgrades⟩
  runs _ := .refl
  slots _ _ _ _ := rfl
  came _ _ hc _ := hc
  waits _ _ hw _ := hw
  queue _ _ := .inl
  owed _ _ hx := .inl ((fades_leaveOwed (ls := []) s p r).owed _ hx)

theorem passes_freeWait (h : Calm K s) (j : WaitNo) : Passes K s (s.setWait j .free) where
  calm := ⟨h.booked.setWait rfl, fun k x r i e => by
    rw [State.wait_setWait] at e
    split at e
    · exact absurd e WaitEntry.noConfusion
    · exact h.waits k x r i e, h.upgrades⟩
  runs _ := .refl
  slots _ _ _ _ := rfl
  came _ _ hc _ := hc
  waits _ _ hw _ := (fades_freeWait (ls := []) s j).info hw
  queue _ _ := .inl
  owed _ _ := .inl

theorem passes_dropOwed_slot (h : Calm K s) {i : SlotNo} (hi : ∀ c, (s.slot i).body.client? = some c → ¬ K c) :
    Passes K s (s.dropOwed (.slot i)) := by
  rcases s.dropOwed_slot_cases i with ⟨freed, dead, unbooked⟩ | owing
  · rw [freed]
    exact passes_setSlot h hi (by simp [SlotBody.client?]) (.of_not_live dead) fun w hw => absurd hw (unbooked w)
  · rw [owing]
    exact passes_setOwed h hi none

/-- The head of an owed list, a record of a client outside `K` that owes on the port, is delivered. -/
theorem passes_deliverRef (h : Calm K s) {p : CPort} {r : Ref} (owes : s.owesOn p r)
    (other : ∀ c, s.refClient r = some c → ¬ K c) : Passes K s ((s.leaveOwed p r).deliverRef p r) := by
  have left := passes_leaveOwed h p r
  cases r with
  | slot i =>
    obtain ⟨l, hl, port, -⟩ := owes
    simp only [State.deliverRef, State.leaveOwed_slot, hl]
    split
    · rename_i k _
      have pushed := passes_pushMessage (p := p) left.calm (m := (s.leaveOwed p (.slot i)).slotNotice i l k)
        ⟨l.client, other _ (SlotBody.client_of_lease hl), port, rfl⟩
      exact (left.trans pushed).trans (passes_dropOwed_slot pushed.calm other)
    · exact left
  | wait j =>
    obtain ⟨w, c, hw, port⟩ := owes
    simp only [State.deliverRef, State.leaveOwed_wait, hw]
    have pushed := passes_pushMessage (p := p) left.calm (m := waitEndedNotice w c.code)
      ⟨w.client, other _ (by rw [State.refClient, hw]; rfl), port, rfl⟩
    exact (left.trans pushed).trans (passes_freeWait pushed.calm j)

theorem passes_deliverOwed {fuel : Nat} {p : CPort} (gone : Gone K s) (booked : s.booked) (owed : owedLaw s) :
    Passes K s (State.deliverOwed fuel p s) := by
  induction fuel generalizing s with
  | zero => exact .refl (gone.calm booked)
  | succ n ih =>
    simp only [State.deliverOwed]
    split
    · exact .refl (gone.calm booked)
    · rename_i r rest e
      split
      · have mem : r ∈ (s.side p).owed := by rw [e]; exact List.mem_cons_self
        have head := passes_deliverRef (gone.calm booked) (((owed.1 p).2 r).1 mem) fun _ => gone.refClient
        have tidy := tidy_deliverRef mem
        rw [State.setSide_tail e]
        exact head.trans (ih (gone.passes head) (tidy.booked booked) (tidy.owed booked owed))
      · exact .refl (gone.calm booked)

theorem passes_deliverAllOwed {p : CPort} (gone : Gone K s) (booked : s.booked) (owed : owedLaw s) :
    Passes K s (s.deliverAllOwed p) := passes_deliverOwed gone booked owed

end Sys2Proof.Machine
end

section
/-! PROOFS. DETACH and PURGE_CLIENT leave their client nothing (R112, R114, R116, R132). -/

namespace Sys2Proof.Machine

variable {s t u : State} {c : Client} {f : Frame}

/-! ### What both leave -/

theorem Client.ext {c d : Client} (port : d.port = c.port) (tag : d.tag = c.tag) : d = c := by
  cases c
  cases d
  rw [Client.mk.injEq]
  exact ⟨port, tag⟩

theorem not_listed_leasesOf {i : SlotNo} {l : Lease} (live : (s.slot i).body.live? = some l) (other : l.client ≠ c) :
    i ∉ s.leasesOf c := fun mem => by
  obtain ⟨x, hx, client⟩ := State.mem_leasesOf.1 mem
  rw [live] at hx
  exact other (Option.some.inj hx ▸ client)

/-- Once the client is gone, what the statement asks of the state: nothing of the client's is left, and the other
clients' leases run on. -/
theorem nothing_left_of_gone (gone : Gone (· = c) u) (steady : u.steady = s.steady)
    (runs : ∀ i l, (s.slot i).body.live? = some l → l.client ≠ c → (s.slot i).RunsOn (u.slot i)) :
    (∀ i : SlotNo, (u.slot i).body.client? ≠ some c)
      ∧ (∀ j : WaitNo, (u.wait j).info?.map Wait.client ≠ some c)
      ∧ (∀ r ∈ (u.side c.port).owed, u.refClient r ≠ some c)
      ∧ (∀ (i : SlotNo) (l : Lease), (s.slot i).body.live? = some l → l.client ≠ c →
          (u.slot i).generation = (s.slot i).generation
            ∧ ∃ x : Lease, (u.slot i).body.live? = some x ∧ x.client = l.client
              ∧ x.resource = l.resource ∧ x.remaining = l.remaining)
      ∧ u.array = s.array ∧ u.store = s.store ∧ u.epoch = s.epoch ∧ u.prescale = s.prescale := by
  refine ⟨fun i e => gone.slots i c e rfl, fun j e => ?_, fun r _ e => gone.refClient e rfl,
    fun i l live other => runs i l live other l live, congrArg Steady.array steady, congrArg Steady.store steady,
    congrArg Steady.epoch steady, congrArg Steady.prescale steady⟩
  obtain ⟨w, hw, mine⟩ := Option.map_eq_some_iff.1 e
  exact gone.waits j w hw mine

/-- The waits and the leases of the client, each ended, leave it nothing. -/
theorem gone_of_ends (fades : Fades (s.leasesOf c) s t) (lease : leaseLaw t) (owed : owedLaw t)
    (silent : s.silent (· = c)) (waits : ∀ j ∈ s.waitsOf c, (t.wait j).queued? = none)
    (leases : ∀ i ∈ s.leasesOf c, (t.slot i).body.live? = none) : Gone (· = c) t :=
  fades.gone lease owed silent (fun j w hw mine => waits j (State.mem_waitsOf.2 ⟨w, hw, mine⟩))
    fun i l hl mine => leases i (State.mem_leasesOf.2 ⟨l, hl, mine⟩)

theorem State.steady_detach (s : State) (c : Client) : (s.detach c).1.steady = s.steady := by
  simp only [State.detach, steady_deliverAllOwed, steady_grantRules, steady_endLeasesQuiet, steady_clearUpgrades,
    steady_endWaitsQuiet, steady_withdrawAll, steady_setPort]

theorem State.steady_purge (s : State) (c : Client) : (s.purge c).1.steady = s.steady := by
  simp only [State.purge, steady_grantRules, steady_foldl steady_endLeasePurged, steady_foldl steady_endWaitPurged,
    steady_withdrawAll]

/-! ### DETACH (R116) -/

/-- DETACH past its second step: the client's notices are out of the queue and its owed records withdrawn. -/
def State.detachBegun (s : State) (c : Client) : State :=
  (s.setPort (.client c.port) ((s.port (.client c.port)).dropNotices c.tag)).withdrawAll c.port (s.owedOf c)

/-- DETACH before the grant rules. -/
def State.detachEnded (s : State) (c : Client) : State :=
  let t := s.detachBegun c
  t.endAll (t.waitsOf c) ((t.endWaitsQuiet (t.waitsOf c)).upgradeResources (t.leasesOf c)) (t.leasesOf c)

theorem State.detach_state (s : State) (c : Client) :
    ∃ ns, (s.detach c).1 = ((s.detachEnded c).grantRules ns).deliverAllOwed c.port := ⟨_, rfl⟩

theorem State.detach_reply (s : State) (c : Client) (booked : s.booked) :
    (s.detach c).2 =
      { status := .ok
        extra := [byteOf ((s.port (.client c.port)).queue.filter (Message.noticeFor c.tag)).length,
          byteOf (s.owedOf c).length, byteOf (s.waitsOf c).length, byteOf (s.leasesOf c).length] } := by
  have booked' : (s.setPort (.client c.port) ((s.port (.client c.port)).dropNotices c.tag)).booked := booked
  simp only [State.detach, List.countP_eq_length_filter, State.waitsOf_withdrawAll,
    State.leasesOf_withdrawAll booked']
  rfl

section
variable (lease : leaseLaw s) (owed : owedLaw s)
include lease owed

theorem State.detachBegun_laws (c : Client) :
    leaseLaw (s.detachBegun c) ∧ owedLaw (s.detachBegun c) ∧ (s.detachBegun c).silent (· = c) := by
  have withdrawn := tidy_withdrawAll (s := s.setPort (.client c.port) ((s.port (.client c.port)).dropNotices c.tag))
    (State.owedOf_sublist (s := s) c)
  exact ⟨leaseLaw_of_ledger (by rw [State.detachBegun, ledger_withdrawAll, ledger_setPort]) lease,
    withdrawn.owed (booked_of_leaseLaw lease) owed, silent_withdrawAll (s := s.setPort _ _) owed⟩

theorem State.gone_detachEnded (c : Client) : Gone (· = c) (s.detachEnded c) := by
  obtain ⟨lease', owed', silent⟩ := State.detachBegun_laws lease owed c
  exact gone_of_ends (fades_endAll _ _ _) (leaseLaw_endAll _ _ _ lease')
    ((tidy_endAll _ _ _).owed (booked_of_leaseLaw lease') owed') silent
    (fun j hj => not_queued_endAll hj _ _ _) fun i hi => not_live_endAll hi _ _ _

/-- The ends of DETACH give the records back in order, and the grant rules and the deliveries pass the client by. -/
theorem State.detach_passes (c : Client) :
    Gone (· = c) (s.detach c).1 ∧ Passes (· = c) (s.detachEnded c) (s.detach c).1 := by
  obtain ⟨lease', owed', silent⟩ := State.detachBegun_laws lease owed c
  have booked := booked_of_leaseLaw lease'
  have ends : Tidy (s.detachBegun c) (s.detachEnded c) := tidy_endAll _ _ _
  have gone := State.gone_detachEnded lease owed c
  obtain ⟨ns, e⟩ := s.detach_state c
  have granted := passes_grantRules (gone.calm (ends.booked booked)) ns
  have grants := ends.toKept.trans (orderly_grantRules (s := s.detachEnded c) ns).toKept
  have delivered := passes_deliverAllOwed (p := c.port) (gone.passes granted) (grants.booked booked)
    (grants.owed booked owed')
  rw [e]
  exact ⟨(gone.passes granted).passes delivered, granted.trans delivered⟩

theorem State.detach_runs {i : SlotNo} {l : Lease} (live : (s.slot i).body.live? = some l) (other : l.client ≠ c) :
    (s.slot i).RunsOn ((s.detach c).1.slot i) := by
  have booked := booked_of_leaseLaw lease
  have fades : Fades ((s.detachBegun c).leasesOf c)
      (s.setPort (.client c.port) ((s.port (.client c.port)).dropNotices c.tag)) (s.detachEnded c) :=
    (fades_withdrawAll _ _ _).trans (fades_endAll _ _ _)
  refine (fades.runs booked i ?_).trans ((State.detach_passes lease owed c).2.runs i)
  rw [State.detachBegun, State.leasesOf_withdrawAll (s := s.setPort _ _) booked]
  exact not_listed_leasesOf (s := s) live other

/-- No notice for the client stands in its port's queue (R116). -/
theorem State.detach_queue {m : Message} (mem : m ∈ ((s.detach c).1.port (.client c.port)).queue) :
    m.noticeFor c.tag = false := by
  have ports : (s.detachEnded c).ports =
      (s.setPort (.client c.port) ((s.port (.client c.port)).dropNotices c.tag)).ports :=
    (ports_endAll_same _ _ _ _).trans (ports_withdrawAll_same _ _ _)
  rcases (State.detach_passes lease owed c).2.queue c.port m mem with old | ⟨d, other, port, tag⟩
  · rw [State.port, ports, ← State.port, State.port_setPort, if_pos rfl] at old
    exact Bool.not_eq_true' _ ▸ (List.mem_filter.1 old).2
  · have apart : m.tag ≠ byteOf c.tag.val := fun e => by
      have same := congrArg tagOf? (tag.symm.trans e)
      rw [tagOf_byteOf, tagOf_byteOf] at same
      exact other (Client.ext port (Option.some.inj same))
    rw [Message.noticeFor, decide_eq_false apart, Bool.and_false]

end

/-! ### What a purge queues (R132) -/

/-- Further notices that the unit can take (R110). -/
def PortUnit.places (u : PortUnit) : Nat := min (12 - u.notices) (16 - u.taken)

theorem PortUnit.room_iff_places {p : CPort} (u : PortUnit) : u.room (.client p) = true ↔ 0 < u.places := by
  have limits : u.room (.client p) = true ↔ u.notices < 12 ∧ u.taken < 16 := by
    rw [PortUnit.room, Bool.and_eq_true, decide_eq_true_eq, decide_eq_true_eq]
    rfl
  rw [limits, PortUnit.places]
  omega

theorem PortUnit.places_grown {u : PortUnit} {m : Message} (hm : m.isNotice = true) :
    (u.grown [m]).places = u.places - 1 := by
  simp only [PortUnit.places, PortUnit.grown, PortUnit.notices, PortUnit.taken, List.filter_append,
    List.filter_cons, hm, if_true, List.filter_nil, List.length_append, List.length_singleton]
  omega

/-- How many notices the port takes before one is owed or discarded (R111). -/
def State.takes (s : State) (p : CPort) : Nat :=
  if (s.side p).owed = [] then (s.port (.client p)).places else 0

theorem State.canTake_iff_takes {p : CPort} : s.canTake p = true ↔ 0 < s.takes p := by
  rw [State.canTake, Bool.and_eq_true, PortUnit.room_iff_places, State.takes, List.isEmpty_iff]
  split
  · rename_i e; simp [e]
  · rename_i e; simp [e]

/-- The port's owed list stays, and one notice is queued where the port can take it. -/
structure State.Tells (p : CPort) (s t : State) : Prop where
  owed : (t.side p).owed = (s.side p).owed
  told : s.canTake p = true → ∃ m, m.isNotice = true ∧ t.port (.client p) = (s.port (.client p)).grown [m]
  untold : s.canTake p = false → t.port (.client p) = s.port (.client p)

theorem State.Tells.of_taken {p : CPort} (can : s.canTake p = true) (owed : (t.side p).owed = (s.side p).owed)
    {m : Message} (notice : m.isNotice = true) (grown : t.port (.client p) = (s.port (.client p)).grown [m]) :
    s.Tells p t :=
  ⟨owed, fun _ => ⟨m, notice, grown⟩, fun full => Bool.noConfusion (can.symm.trans full)⟩

theorem State.Tells.of_full {p : CPort} (full : s.canTake p = false) (owed : (t.side p).owed = (s.side p).owed)
    (same : t.port (.client p) = s.port (.client p)) : s.Tells p t :=
  ⟨owed, fun can => Bool.noConfusion (full.symm.trans can), fun _ => same⟩

theorem State.Tells.counts {p : CPort} (h : s.Tells p t) :
    (t.port (.client p)).queue.length = (s.port (.client p)).queue.length + min 1 (s.takes p)
      ∧ t.takes p = s.takes p - 1 := by
  cases can : s.canTake p with
  | true =>
    have positive := State.canTake_iff_takes.1 can
    obtain ⟨m, notice, grown⟩ := h.told can
    refine ⟨?_, ?_⟩
    · rw [grown, PortUnit.grown, List.length_append, List.length_singleton]
      omega
    · simp only [State.takes, h.owed, grown, PortUnit.places_grown notice]
      split <;> rfl
  | false =>
    have zero : s.takes p = 0 := by
      have := mt State.canTake_iff_takes.2 (by rw [can]; exact Bool.false_ne_true)
      omega
    have same : t.takes p = s.takes p := by rw [State.takes, State.takes, h.owed, h.untold can]
    rw [same, zero, h.untold can]
    exact ⟨rfl, rfl⟩

/-- Ends, each of which tells the client: as many notices are queued as there are ends, while the port can take them. -/
theorem State.counts_foldl {α : Type} {f : State → α → State} {p : CPort} {V : α → State → Prop}
    (tells : ∀ t a, V a t → t.Tells p (f t a)) (keeps : ∀ t a b, b ≠ a → V b t → V a t → V b (f t a)) {l : List α}
    (nodup : l.Nodup) (valid : ∀ a ∈ l, V a s) :
    ((l.foldl f s).port (.client p)).queue.length = (s.port (.client p)).queue.length + min l.length (s.takes p)
      ∧ (l.foldl f s).takes p = s.takes p - l.length := by
  induction l generalizing s with
  | nil => simp
  | cons a l ih =>
    obtain ⟨fresh, nodup⟩ := List.nodup_cons.1 nodup
    have here := valid a List.mem_cons_self
    obtain ⟨queue, takes⟩ := (tells s a here).counts
    obtain ⟨queue', takes'⟩ := ih (s := f s a) nodup fun b hb =>
      keeps s a b (fun e => fresh (e ▸ hb)) (valid b (List.mem_cons_of_mem _ hb)) here
    rw [List.foldl_cons, List.length_cons]
    omega

/-- The entry is QUEUED for the client. -/
def State.waitsFor (c : Client) (j : WaitNo) (s : State) : Prop := ∃ w, (s.wait j).queued? = some w ∧ w.client = c

/-- The slot holds a lease of the client that owes nothing and stands on no owed list of its port. -/
def State.holdsQuietly (c : Client) (i : SlotNo) (s : State) : Prop :=
  s.booked ∧ Ref.slot i ∉ (s.side c.port).owed
    ∧ ∃ l, (s.slot i).body.live? = some l ∧ l.client = c ∧ l.owed = none

theorem tells_endWaitPurged {j : WaitNo} (h : s.waitsFor c j) : s.Tells c.port (s.endWaitPurged j) := by
  obtain ⟨w, hw, rfl⟩ := h
  cases e : s.wait j with
  | queued x r i =>
    obtain rfl : x = w := by simpa [e, WaitEntry.queued?] using hw
    have same : (s.leaveQueue j x.resource i).canTake x.client.port = s.canTake x.client.port := rfl
    simp only [State.endWaitPurged, e, same]
    cases can : s.canTake x.client.port with
    | true =>
      exact .of_taken can rfl (m := waitEndedNotice x purgedWaitCode) rfl
        (by simp [State.port_pushMessage, PortUnit.grown, State.leaveQueue])
    | false => exact .of_full can rfl rfl
  | _ => simp [e, WaitEntry.queued?] at hw

theorem waitsFor_endWaitPurged {j k : WaitNo} (hk : k ≠ j) (h : s.waitsFor c k) : (s.endWaitPurged j).waitsFor c k := by
  obtain ⟨w, hw, mine⟩ := h
  refine ⟨w, ?_, mine⟩
  rw [WaitEntry.claim_queued, ← State.ledger_claim] at hw ⊢
  rw [ledger_endWaitPurged, ← hw]
  cases claim : s.ledger.claim j with
  | none => rw [Ledger.endWait_of_none claim]
  | some x => rw [Ledger.endWait_of_claim claim, Ledger.setClaim_claim, if_neg hk]; rfl

theorem tells_endLeasePurged {i : SlotNo} (h : s.holdsQuietly c i) : s.Tells c.port (s.endLeasePurged i) := by
  obtain ⟨-, unlisted, l, hl, rfl, none⟩ := h
  have same : (s.leaveHolders i l.resource).canTake l.client.port = s.canTake l.client.port := rfl
  simp only [State.endLeasePurged, hl, none, Option.isNone_none, Bool.true_and, same]
  cases can : s.canTake l.client.port with
  | true =>
    exact .of_taken can rfl
      (m := leaseEndedNotice i (s.slot i).generation l (s.slot i).body.grace? purgedLeaseCode) rfl
      (by simp [State.port_pushMessage, PortUnit.grown, State.leaveHolders])
  | false =>
    refine .of_full can ?_ rfl
    refine ((s.leaveHolders i l.resource).owed_leaveOwed l.client.port l.client.port (.slot i)).trans ?_
    rw [if_pos rfl]
    exact List.erase_of_not_mem unlisted

/-- Ends of other records leave a lease that owes nothing as it was. -/
theorem State.holdsQuietly.fades {ls : List SlotNo} {i : SlotNo} (h : s.holdsQuietly c i) (fades : Fades ls s t)
    (hi : i ∉ ls) : t.holdsQuietly c i := by
  obtain ⟨booked, unlisted, l, hl, mine, none⟩ := h
  obtain ⟨-, x, hx, client, -⟩ := fades.runs booked i hi l hl
  obtain ⟨y, hy, -, owes⟩ := (fades.body i).live x hx
  obtain rfl : l = y := Option.some.inj (hl.symm.trans hy)
  exact ⟨fades.booked booked, fun mem => unlisted (fades.owed _ mem), x, hx, client.trans mine, owes none⟩

/-! ### PURGE_CLIENT (R132) -/

/-- PURGE_CLIENT past its first step: the client's owed records are withdrawn. -/
def State.purgeBegun (s : State) (c : Client) : State := s.withdrawAll c.port (s.owedOf c)

/-- PURGE_CLIENT when the client's waits have ended. -/
def State.purgeWaits (s : State) (c : Client) : State :=
  ((s.purgeBegun c).waitsOf c).foldl (fun t j => t.endWaitPurged j) (s.purgeBegun c)

/-- PURGE_CLIENT before the grant rules. -/
def State.purgeEnded (s : State) (c : Client) : State :=
  ((s.purgeBegun c).leasesOf c).foldl (fun t i => t.endLeasePurged i) (s.purgeWaits c)

theorem State.purge_state (s : State) (c : Client) : ∃ ns, (s.purge c).1 = (s.purgeEnded c).grantRules ns := ⟨_, rfl⟩

theorem fades_purgeWaits (ls : List SlotNo) (s : State) (c : Client) : Fades ls (s.purgeBegun c) (s.purgeWaits c) :=
  .foldl (fun t j _ => fades_endWaitPurged t j) _

theorem fades_purgeEnded (s : State) (c : Client) :
    Fades ((s.purgeBegun c).leasesOf c) (s.purgeBegun c) (s.purgeEnded c) :=
  (fades_purgeWaits _ s c).trans (.foldl (fun t _ hi => fades_endLeasePurged hi t) _)

theorem tidy_purgeEnded (s : State) (c : Client) : Tidy (s.purgeBegun c) (s.purgeEnded c) :=
  (Tidy.foldl (fun _ j => tidy_endWaitPurged j) _ _).trans (Tidy.foldl (fun _ i => tidy_endLeasePurged i) _ _)

section
variable (lease : leaseLaw s) (owed : owedLaw s)
include lease owed

theorem State.purgeBegun_laws (c : Client) :
    leaseLaw (s.purgeBegun c) ∧ owedLaw (s.purgeBegun c) ∧ (s.purgeBegun c).silent (· = c) :=
  ⟨leaseLaw_of_ledger (ledger_withdrawAll s _ _) lease,
    (tidy_withdrawAll (State.owedOf_sublist c)).owed (booked_of_leaseLaw lease) owed, silent_withdrawAll owed⟩

theorem State.purge_passes (c : Client) :
    Gone (· = c) (s.purge c).1 ∧ Passes (· = c) (s.purgeEnded c) (s.purge c).1 := by
  obtain ⟨lease', owed', silent⟩ := State.purgeBegun_laws lease owed c
  have booked := booked_of_leaseLaw lease'
  have waits : leaseLaw (s.purgeWaits c) :=
    List.foldlRecOn _ _ lease' fun t h j _ => leaseLaw_of_endWait (ledger_endWaitPurged t j) h
  have ended : leaseLaw (s.purgeEnded c) :=
    List.foldlRecOn _ _ waits fun t h i _ => leaseLaw_of_endLease (ledger_endLeasePurged t i) h
  have gone : Gone (· = c) (s.purgeEnded c) :=
    gone_of_ends (fades_purgeEnded s c) ended ((tidy_purgeEnded s c).owed booked owed') silent
      (fun j hj => Fades.not_queued (.foldl (fun t _ hi => fades_endLeasePurged hi t) _)
        (not_queued_of_ends ledger_endWaitPurged fades_endWaitPurged hj _))
      fun i hi => not_live_of_ends ledger_endLeasePurged (fun t _ => fades_endLeasePurged (List.mem_singleton_self _) t)
        hi _
  obtain ⟨ns, e⟩ := s.purge_state c
  have granted := passes_grantRules (gone.calm (booked_of_leaseLaw ended)) ns
  rw [e]
  exact ⟨gone.passes granted, granted⟩

theorem State.purge_runs {i : SlotNo} {l : Lease} (live : (s.slot i).body.live? = some l) (other : l.client ≠ c) :
    (s.slot i).RunsOn ((s.purge c).1.slot i) := by
  have booked := booked_of_leaseLaw lease
  have fades := (fades_withdrawAll s c.port (s.owedOf c)).trans (fades_purgeEnded s c)
  refine (fades.runs booked i ?_).trans ((State.purge_passes lease owed c).2.runs i)
  rw [State.purgeBegun, State.leasesOf_withdrawAll booked]
  exact not_listed_leasesOf live other

/-- The client's own leases owe nothing once its owed records are withdrawn. -/
theorem State.holdsQuietly_purgeBegun {i : SlotNo} (hi : i ∈ (s.purgeBegun c).leasesOf c) :
    (s.purgeBegun c).holdsQuietly c i := by
  obtain ⟨lease', owed', silent⟩ := State.purgeBegun_laws lease owed c
  obtain ⟨l, hl, mine⟩ := State.mem_leasesOf.1 hi
  have unlisted : Ref.slot i ∉ ((s.purgeBegun c).side c.port).owed := fun mem =>
    silent c rfl _ mem ((SlotBody.client_of_live hl).trans (congrArg some mine))
  refine ⟨booked_of_leaseLaw lease', unlisted, l, hl, mine, ?_⟩
  by_contra owes
  exact unlisted (((owed'.1 c.port).2 _).2 ⟨l, SlotBody.lease_of_live hl, by rw [mine], owes⟩)

/-- Each wait and each lease that ends queues its notice while the port takes it (R132). -/
theorem State.queued_purgeEnded (c : Client) :
    ((s.purgeEnded c).port (.client c.port)).queue.length =
      ((s.purgeBegun c).port (.client c.port)).queue.length
        + min ((s.waitsOf c).length + (s.leasesOf c).length) ((s.purgeBegun c).takes c.port) := by
  obtain ⟨waits, left⟩ := State.counts_foldl (s := s.purgeBegun c) (V := State.waitsFor c)
    (fun t j => tells_endWaitPurged) (fun t j k hk h _ => waitsFor_endWaitPurged hk h)
    (l := (s.purgeBegun c).waitsOf c) ((List.nodup_finRange 48).filter _) fun j hj => State.mem_waitsOf.1 hj
  obtain ⟨leases, -⟩ := State.counts_foldl (s := s.purgeWaits c) (V := State.holdsQuietly c)
    (fun t i => tells_endLeasePurged)
    (fun t i k hk h _ => h.fades (fades_endLeasePurged (List.mem_singleton_self i) t) (by simpa using hk))
    (l := (s.purgeBegun c).leasesOf c) (allSlots_nodup.filter _) fun i hi =>
      (State.holdsQuietly_purgeBegun lease owed hi).fades (fades_purgeWaits [] s c) List.not_mem_nil
  rw [← State.purgeWaits] at waits left
  rw [← State.purgeEnded] at leases
  rw [show (s.purgeBegun c).waitsOf c = s.waitsOf c from s.waitsOf_withdrawAll _ _ _] at waits left
  rw [show (s.purgeBegun c).leasesOf c = s.leasesOf c from s.leasesOf_withdrawAll
    (booked_of_leaseLaw lease) _ _ _] at leases
  omega

omit lease owed in
/-- The port's owed list is empty once the client's records are withdrawn exactly where it held no others. -/
theorem State.takes_purgeBegun (c : Client) :
    (s.purgeBegun c).takes c.port =
      if (s.owedOf c).length = (s.side c.port).owed.length then (s.port (.client c.port)).places else 0 := by
  have all : (s.owedOf c).length = (s.side c.port).owed.length ↔ s.owedOf c = (s.side c.port).owed :=
    (State.owedOf_sublist c).length_eq
  have empty : ((s.purgeBegun c).side c.port).owed = [] ↔ s.owedOf c = (s.side c.port).owed := by
    refine ⟨fun none => ?_, fun e => State.owed_withdrawAll e.symm⟩
    refine List.filter_eq_self.2 fun r mem => ?_
    by_contra other
    have kept := s.mem_withdrawAll_of (refs := s.owedOf c) mem fun listed => other (List.mem_filter.1 listed).2
    rw [← State.purgeBegun, none] at kept
    exact List.not_mem_nil kept
  have ports : (s.purgeBegun c).port (.client c.port) = s.port (.client c.port) := by
    rw [State.port, State.purgeBegun, ports_withdrawAll_same, ← State.port]
  simp only [State.takes, empty, all, ports]

/-- How many notices PURGE_CLIENT queues. -/
theorem State.purge_queued (c : Client) :
    ((s.purgeEnded c).port (.client c.port)).queue.length - ((s.purgeBegun c).port (.client c.port)).queue.length =
      if (s.owedOf c).length = (s.side c.port).owed.length then
        min ((s.waitsOf c).length + (s.leasesOf c).length) (s.port (.client c.port)).places else 0 := by
  rw [State.queued_purgeEnded lease owed, Nat.add_sub_cancel_left, State.takes_purgeBegun]
  split
  · rfl
  · exact Nat.min_zero _

theorem State.purge_reply (c : Client) :
    (s.purge c).2 =
      let queued := if (s.owedOf c).length = (s.side c.port).owed.length then
        min ((s.waitsOf c).length + (s.leasesOf c).length) (s.port (.client c.port)).places else 0
      { status := .ok
        extra := [byteOf (s.leasesOf c).length, byteOf (s.waitsOf c).length, byteOf queued,
          byteOf ((s.owedOf c).length + ((s.waitsOf c).length + (s.leasesOf c).length - queued))] } := by
  rw [← State.purge_queued lease owed, ← s.waitsOf_withdrawAll c.port (s.owedOf c) c,
    ← s.leasesOf_withdrawAll (booked_of_leaseLaw lease) c.port (s.owedOf c) c]
  rfl

omit owed in
/-- DETACH carried out (R116). -/
theorem State.detach_leaves (asks : s.clientAsks Kind.detach c f) :
    exec .detach s = .next ((s.detach c).1.clientAnswer Kind.detach c f
      { status := .ok
        extra := [byteOf ((s.port (.client c.port)).queue.filter (Message.noticeFor c.tag)).length,
          byteOf (s.owedOf c).length, byteOf (s.waitsOf c).length, byteOf (s.leasesOf c).length] }) :=
  exec_decided (d := detachDecision) rfl asks
    (Prod.ext rfl (s.detach_reply c (booked_of_leaseLaw lease)))

end

/-! ### The operands of PURGE_CLIENT (R132, R158) -/

theorem portOf_code (p : CPort) : portOf? (byteOf p.code) = some p := by cases p <;> rfl

theorem portOf_none {b : Byte} (h : 4 ≤ b.toNat) : portOf? b = none := by
  have apart : ∀ n < 4, b ≠ BitVec.ofNat 8 n := by
    rintro n hn rfl
    rw [BitVec.toNat_ofNat] at h
    omega
  simp [portOf?, apart 0, apart 1, apart 2, apart 3]

theorem tagOf_none {b : Byte} (h : 8 ≤ b.toNat) : tagOf? b = none := by simp [tagOf?, Nat.not_lt.2 h]

theorem purgeClientDecision_malformed (h : 4 ≤ (byteAt f 4).toNat ∨ 8 ≤ (byteAt f 5).toNat) :
    purgeClientDecision f s = (s, Reply.bare .badRequest) := by
  rcases h with port | tag
  · simp only [purgeClientDecision, portOf_none port, State.refuse]
  · simp only [purgeClientDecision, tagOf_none tag]
    cases portOf? (byteAt f 4) <;> rfl

theorem purgeClientDecision_client (port : byteAt f 4 = byteOf c.port.code) (tag : byteAt f 5 = byteOf c.tag.val) :
    purgeClientDecision f s = s.purge c := by
  simp only [purgeClientDecision, port, tag, portOf_code, tagOf_byteOf]

/-- Settles O41: after DETACH's, and after PURGE_CLIENT's, ends nothing of the client's is left, and the grant rules and
the deliveries pass it by. -/
theorem detachAndPurgeLeaveNothing : Obligations.DetachAndPurgeLeaveNothing := by
  intro s f c lease owed
  refine ⟨fun asks => ⟨(s.detach c).1, State.detach_leaves lease asks, ?_, fun m mem => ?_, ?_⟩,
    fun asks => ⟨fun wrong => exec_supDecided (d := purgeClientDecision) rfl asks (purgeClientDecision_malformed wrong),
      fun port tag => ?_⟩⟩
  · exact nothing_left_of_gone (State.detach_passes lease owed c).1 (s.steady_detach c)
      fun i l => State.detach_runs lease owed
  · rintro ⟨notice, tag⟩
    have none := State.detach_queue lease owed mem
    rw [Message.noticeFor, notice, decide_eq_true tag] at none
    exact absurd none (by decide)
  · obtain ⟨ns, e⟩ := s.detach_state c
    rw [e]
    exact State.served_deliverAllOwed c.port
  · obtain ⟨ns, -, grown, -⟩ := ports_purge (s := s) c (.client c.port)
    refine ⟨(s.purge c).1, ns, exec_supDecided (d := purgeClientDecision) rfl asks
      ((purgeClientDecision_client port tag).trans (Prod.ext rfl (State.purge_reply lease owed c))), ?_,
      congrArg PortUnit.queue grown⟩
    exact nothing_left_of_gone (State.purge_passes lease owed c).1 (s.steady_purge c)
      fun i l => State.purge_runs lease owed

end Sys2Proof.Machine
end

section
/-! PROOFS. RESET_PORT leaves its port empty, and its clients nothing but the leases it lets run (R117, R118). -/

namespace Sys2Proof.Machine

variable {s t u : State} {p : CPort}

/-! ### Pending upgrades at the ends (R66, R69) -/

theorem Ledger.Upgrades.endWait {L : Ledger} (h : L.Upgrades) (claimed : L.Claimed) (j : WaitNo) :
    (L.endWait j).Upgrades := by
  cases claim : L.claim j with
  | none => rwa [Ledger.endWait_of_none claim]
  | some x =>
    obtain ⟨w, i⟩ := x
    have calm : (L.role i).upgrades? = none := by
      cases e : (L.role i).upgrades? with
      | none => rfl
      | some n => exact absurd ((claimed.on_none claim).symm.trans (Role.on_of_upgrades e)) (Option.some_ne_none n).symm
    rw [Ledger.endWait_of_claim claim]
    refine h.congr (fun n => ?_) (fun k => ?_) fun k hk => ?_
    · simp only [Ledger.setClaim_record, Ledger.setRole_record, Ledger.setRecord_record]
      split
      · rename_i e; rw [e]
      · rfl
    · simp only [Ledger.setClaim_role, Ledger.setRole_role]
      split
      · rename_i e; rw [e, calm]; rfl
      · rfl
    · simp only [Ledger.setClaim_role, Ledger.setRole_role, Ledger.setRecord_role]
      split
      · rename_i e
        rw [e] at hk
        have off := claimed.on_none claim
        cases role : L.role i <;> simp [role, Role.on?, Role.mode?] at off hk
      · exact hk

theorem upgrades_clearUpgrade (h : s.ledger.Upgrades) (n : ResNo) : (s.clearUpgrade n).ledger.Upgrades := by
  cases pending : (s.record n).upgradePending with
  | none => rwa [ledger_clearUpgrade_none s pending]
  | some i =>
    have on := Role.on_of_upgrades ((h.named n i).1 pending)
    have same : (s.clearUpgrade n).ledger = s.ledger.calm i := by
      rw [ledger_clearUpgrade_some s pending, Ledger.calm_of_on on]
      rfl
    rw [same]
    refine (Ledger.oneLease_calm on).upgrades h ?_ ?_ <;> rw [Ledger.calm_of_on on]
    · simp
    · simp [Record.clearUpgrade]

theorem upgrades_endWaitsQuiet (lease : leaseLaw s) (h : s.ledger.Upgrades) (js : List WaitNo) :
    (s.endWaitsQuiet js).ledger.Upgrades := by
  have both : leaseLaw (s.endWaitsQuiet js) ∧ (s.endWaitsQuiet js).ledger.Upgrades :=
    List.foldlRecOn (motive := fun t => leaseLaw t ∧ t.ledger.Upgrades) js _ ⟨lease, h⟩ fun t k j _ =>
      ⟨leaseLaw_of_endWait (ledger_endWaitQuiet t j) k.1, by
        rw [ledger_endWaitQuiet]
        exact k.2.endWait (leaseLaw_iff.1 k.1).claimed j⟩
  exact both.2

theorem upgrades_clearUpgrades (h : s.ledger.Upgrades) (ns : List ResNo) : (s.clearUpgrades ns).ledger.Upgrades :=
  List.foldlRecOn (motive := fun t : State => t.ledger.Upgrades) ns _ h fun _ k n _ => upgrades_clearUpgrade k n

/-- Each resource of the list has no pending upgrade any more. -/
theorem pending_clearUpgrades {ns : List ResNo} {n : ResNo} (hn : n ∈ ns) (s : State) :
    ((s.clearUpgrades ns).record n).upgradePending = none := by
  refine foldl_brings (P := fun n t => (t.record n).upgradePending = none) (fun t k => ?_) (fun t k b h => ?_) hn s
  · simp only [State.clearUpgrade]
    split
    · assumption
    · rw [State.setBody_record, State.record_setRecord, if_pos rfl]
  · cases e : ((t.clearUpgrade b).record k).upgradePending with
    | none => rfl
    | some i =>
      have before := (releases_clearUpgrade t b).pending k i e
      rw [State.ledger_record, h] at before
      exact absurd before (Option.some_ne_none i).symm

/-! ### RESET_PORT (R117) -/

/-- RESET_PORT when the port is empty and all it owed is withdrawn. -/
def State.resetBegun (s : State) (p : CPort) : State :=
  (s.setPort (.client p) (s.port (.client p)).cleared).withdrawAll p (s.side p).owed

/-- The leases that the port's policy ends (R118). -/
def State.resetEnding (s : State) (p : CPort) : List SlotNo :=
  match (s.side p).policy with
  | .release => (s.resetBegun p).portLeases p
  | .orphan => []

/-- RESET_PORT when the waits of the port's clients have ended. -/
def State.resetWaits (s : State) (p : CPort) : State := (s.resetBegun p).endWaitsQuiet ((s.resetBegun p).portWaits p)

/-- RESET_PORT before the grant rules. -/
def State.resetEnded (s : State) (p : CPort) : State :=
  (s.resetBegun p).endAll ((s.resetBegun p).portWaits p)
    ((s.resetWaits p).upgradeResources ((s.resetBegun p).portLeases p)) (s.resetEnding p)

theorem State.resetPort_state (s : State) (p : CPort) :
    ∃ ns, (s.resetPort p).1 = (s.resetEnded p).grantRules ns := ⟨_, rfl⟩

theorem State.mem_portWaits {j : WaitNo} :
    j ∈ s.portWaits p ↔ ∃ w, (s.wait j).queued? = some w ∧ w.client.port = p := by
  cases e : (s.wait j).queued? <;> simp [State.portWaits, allWaits, Client.isOn, e]

theorem State.mem_portLeases {i : SlotNo} :
    i ∈ s.portLeases p ↔ ∃ l, (s.slot i).body.live? = some l ∧ l.client.port = p := by
  cases e : (s.slot i).body.live? <;> simp [State.portLeases, allSlots, Client.isOn, e]

theorem State.portWaits_eq (s : State) (p : CPort) :
    s.portWaits p = allWaits.filter fun j => decide ((s.wait j).queued?.map (fun w => w.client.port) = some p) := by
  refine List.filter_congr fun j _ => ?_
  cases (s.wait j).queued? <;> simp [Client.isOn]

theorem State.portLeases_eq (s : State) (p : CPort) :
    s.portLeases p =
      allSlots.filter fun i => decide ((s.slot i).body.live?.map (fun l => l.client.port) = some p) := by
  refine List.filter_congr fun i _ => ?_
  cases (s.slot i).body.live? <;> simp [Client.isOn]

theorem State.portWaits_resetBegun (s : State) (p : CPort) : (s.resetBegun p).portWaits p = s.portWaits p := by
  simp only [State.portWaits, State.resetBegun, State.queued_withdrawAll, State.setPort_wait]

theorem State.portLeases_resetBegun (booked : s.booked) : (s.resetBegun p).portLeases p = s.portLeases p := by
  have client (i : SlotNo) := State.liveClient_withdrawAll
    (s := s.setPort (.client p) (s.port (.client p)).cleared) booked p (s.side p).owed i
  rw [State.portLeases_eq, State.portLeases_eq]
  refine List.filter_congr fun i _ => ?_
  have same := congrArg (Option.map Client.port) (client i)
  rw [Option.map_map, Option.map_map] at same
  exact congrArg (fun x => decide (x = some p)) same

section
variable (lease : leaseLaw s) (owed : owedLaw s)
include lease owed

theorem State.resetBegun_laws (p : CPort) :
    leaseLaw (s.resetBegun p) ∧ owedLaw (s.resetBegun p) ∧ ((s.resetBegun p).side p).owed = [] := by
  have withdrawn := tidy_withdrawAll (s := s.setPort (.client p) (s.port (.client p)).cleared)
    (List.Sublist.refl (s.side p).owed)
  exact ⟨leaseLaw_of_ledger (by rw [State.resetBegun, ledger_withdrawAll, ledger_setPort]) lease,
    withdrawn.owed (booked_of_leaseLaw lease) owed, State.owed_withdrawAll (s := s.setPort _ _) rfl⟩

theorem State.silent_resetBegun (p : CPort) : (s.resetBegun p).silent fun c => c.port = p := by
  obtain ⟨-, -, none⟩ := State.resetBegun_laws lease owed p
  rintro c rfl r mem
  rw [none] at mem
  exact absurd mem List.not_mem_nil

theorem State.resetEnded_laws (p : CPort) : leaseLaw (s.resetEnded p) ∧ owedLaw (s.resetEnded p) := by
  obtain ⟨lease', owed', -⟩ := State.resetBegun_laws lease owed p
  exact ⟨leaseLaw_endAll _ _ _ lease', (tidy_endAll _ _ _).owed (booked_of_leaseLaw lease') owed'⟩

/-- Of the port's clients only live leases are left, under RELEASE none of these. -/
theorem State.resetEnded_leaves (p : CPort) :
    (∀ i c, ((s.resetEnded p).slot i).body.live? = none → ((s.resetEnded p).slot i).body.client? = some c →
        c.port ≠ p)
      ∧ (∀ j w, ((s.resetEnded p).wait j).info? = some w → w.client.port ≠ p)
      ∧ ((s.side p).policy = .release → Gone (fun c => c.port = p) (s.resetEnded p)) := by
  obtain ⟨ended, owes⟩ := State.resetEnded_laws lease owed p
  have silent := State.silent_resetBegun lease owed p
  have fades : Fades (s.resetEnding p) (s.resetBegun p) (s.resetEnded p) := fades_endAll _ _ _
  have waits : ∀ j w, ((s.resetBegun p).wait j).queued? = some w → w.client.port = p →
      ((s.resetEnded p).wait j).queued? = none :=
    fun j w hw on => not_queued_endAll (State.mem_portWaits.2 ⟨w, hw, on⟩) _ _ _
  obtain ⟨dead, entries⟩ := fades.nothing_but_live ended owes silent waits
  refine ⟨dead, entries, fun release => fades.gone ended owes silent waits fun i l hl on => ?_⟩
  refine not_live_endAll ?_ _ _ _
  rw [State.resetEnding, release]
  exact State.mem_portLeases.2 ⟨l, hl, on⟩

variable (upgrade : upgradeLaw s)
include upgrade

theorem State.upgrades_resetWaits (p : CPort) : (s.resetWaits p).ledger.Upgrades := by
  obtain ⟨lease', -, -⟩ := State.resetBegun_laws lease owed p
  refine upgrades_endWaitsQuiet lease' ?_ _
  rw [State.resetBegun, ledger_withdrawAll, ledger_setPort]
  exact (upgradeLaw_iff (holderLaw_iff.1 lease.1)).1 upgrade

/-- No pending upgrade names a slot of the port's clients any more, and none of their waits is in a queue. -/
theorem State.calm_resetEnded (p : CPort) : Calm (fun c => c.port = p) (s.resetEnded p) := by
  obtain ⟨lease', -, -⟩ := State.resetBegun_laws lease owed p
  obtain ⟨ended, -⟩ := State.resetEnded_laws lease owed p
  obtain ⟨-, entries, -⟩ := State.resetEnded_leaves lease owed p
  refine ⟨booked_of_leaseLaw ended, fun j w r i e => entries j w (by rw [e]; rfl), fun n i pending c hc on => ?_⟩
  have waits : Fades [] (s.resetBegun p) (s.resetWaits p) := fades_endWaitsQuiet _ _
  have rest : Fades (s.resetEnding p) (s.resetWaits p) (s.resetEnded p) :=
    (fades_clearUpgrades _ _).trans (fades_endLeasesQuiet _)
  have released : ((s.resetWaits p).clearUpgrades
      ((s.resetWaits p).upgradeResources ((s.resetBegun p).portLeases p))).ledger.Releases (s.resetEnded p).ledger :=
    .foldl (fun t i => by rw [ledger_endLeaseQuiet]; exact Ledger.releases_endLease _ i) _ _
  have left := released.pending n i pending
  have named := (releases_clearUpgrades _ _).pending n i left
  obtain ⟨l, d, body, rfl⟩ := (SlotBody.upgrades_iff _ n).1
    (((State.upgrades_resetWaits lease owed upgrade p).named n i).1 named)
  have live : ((s.resetWaits p).slot i).body.live? = some l := by rw [body]; rfl
  have mine : l.client = c := Option.some.inj ((SlotBody.client_of_live live).symm.trans ((rest.body i).client c hc))
  obtain ⟨x, hx, client, -⟩ := (waits.body i).live l live
  have cleared : l.resource ∈ (s.resetWaits p).upgradeResources ((s.resetBegun p).portLeases p) := by
    refine List.mem_filterMap.2 ⟨i, State.mem_portLeases.2 ⟨x, hx, by rw [← client, mine, on]⟩, ?_⟩
    have names : (s.resetWaits p).upgradeNames i l.resource = true := decide_eq_true named
    simp only [live, names, if_true]
  rw [State.ledger_record, pending_clearUpgrades cleared] at left
  exact Option.some_ne_none i left.symm

/-- The grant rules pass the port's clients by. -/
theorem State.resetPort_passes (p : CPort) :
    Passes (fun c => c.port = p) (s.resetEnded p) (s.resetPort p).1 := by
  obtain ⟨ns, e⟩ := s.resetPort_state p
  rw [e]
  exact passes_grantRules (State.calm_resetEnded lease owed upgrade p) ns

/-- The port unit, and what is owed on it (R117). -/
theorem State.resetPort_port (p : CPort) :
    ((s.resetPort p).1.port (.client p)) = (s.port (.client p)).cleared ∧ ((s.resetPort p).1.side p).owed = [] := by
  have passes := State.resetPort_passes lease owed upgrade p
  have ports : (s.resetEnded p).port (.client p) = (s.port (.client p)).cleared := by
    rw [State.port, State.resetEnded, ports_endAll_same, State.resetBegun, ports_withdrawAll_same, ← State.port,
      State.port_setPort, if_pos rfl]
  obtain ⟨ns, e⟩ := s.resetPort_state p
  obtain ⟨ms, -, grown, -⟩ := ports_grantRules (s.resetEnded p) ns (.client p)
  rw [← e, ports] at grown
  have nothing : ms = [] := by
    refine List.eq_nil_iff_forall_not_mem.2 fun m hm => ?_
    rcases passes.queue p m (by rw [grown]; exact List.mem_append_right _ hm) with old | ⟨c, other, port, -⟩
    · rw [ports] at old
      exact List.not_mem_nil old
    · exact other port
  refine ⟨by rw [grown, nothing, PortUnit.grown, List.append_nil], List.eq_nil_iff_forall_not_mem.2 fun r hr => ?_⟩
  rcases passes.owed p r hr with old | ⟨c, other, port⟩
  · have before := (fades_endAll (ls := s.resetEnding p) _ _ _).owed p old
    rw [(State.resetBegun_laws lease owed p).2.2] at before
    exact List.not_mem_nil before
  · exact other port

/-- What is left of the port's clients (R117, R118). -/
theorem State.resetPort_leaves (p : CPort) :
    (∀ j w, ((s.resetPort p).1.wait j).info? = some w → w.client.port ≠ p)
      ∧ (∀ i c, ((s.resetPort p).1.slot i).body.live? = none →
          ((s.resetPort p).1.slot i).body.client? = some c → c.port ≠ p)
      ∧ ((s.side p).policy = .release → Gone (fun c => c.port = p) (s.resetPort p).1) := by
  have passes := State.resetPort_passes lease owed upgrade p
  obtain ⟨dead, entries, release⟩ := State.resetEnded_leaves lease owed p
  refine ⟨fun j w hw on => entries j w (passes.waits j w hw on) on, fun i c off hc on => ?_,
    fun policy => (release policy).passes passes⟩
  have before := passes.came i c hc on
  rw [passes.slots i c before on] at off
  exact dead i c off before on

end

/-! ### Leases that an ORPHAN port lets run (R118) -/

theorem State.slot_dropOwed_other {r : Ref} {i : SlotNo} (h : r ≠ .slot i) : (s.dropOwed r).slot i = s.slot i := by
  cases r with
  | slot k =>
    obtain ⟨v, e, -⟩ := s.dropOwed_slot k
    rw [e, State.slot_setSlot, if_neg]
    rintro rfl
    exact h rfl
  | wait j =>
    simp only [State.dropOwed]
    split <;> rfl

/-- A live slot whose owed notice is withdrawn, if it has one, owes nothing, and is otherwise as it was. -/
theorem State.slot_withdrawAll_live {refs : List Ref} {i : SlotNo} {l : Lease} (live : (s.slot i).body.live? = some l)
    (owes : l.owed ≠ none → .slot i ∈ refs) :
    (s.withdrawAll p refs).slot i = { s.slot i with body := (s.slot i).body.mapLease (Lease.owing none) } := by
  induction refs generalizing s l with
  | nil =>
    have none : l.owed = none := by
      by_contra some
      exact List.not_mem_nil (owes some)
    have same : (s.slot i).body.mapLease (Lease.owing Option.none) = (s.slot i).body := by
      cases l
      cases e : (s.slot i).body <;> simp_all [SlotBody.mapLease, SlotBody.live?, Lease.owing]
    rw [same]
    rfl
  | cons r rest ih =>
    by_cases here : r = .slot i
    · have owing : (s.withdraw p r).slot i =
          { s.slot i with body := (s.slot i).body.mapLease (Lease.owing none) } := by
        rw [here, State.withdraw]
        rcases (s.leaveOwed p (.slot i)).dropOwed_slot_cases i with ⟨-, dead, -⟩ | owing
        · exact absurd (live.symm.trans dead) (Option.some_ne_none l)
        · rw [owing, State.slot_setOwed, if_pos rfl]
          rfl
      have live' : ((s.withdraw p r).slot i).body.live? = some (l.owing none) := by
        rw [owing, SlotBody.live_mapLease, live]
        rfl
      refine (ih live' fun some => absurd rfl some).trans ?_
      have twice (b : SlotBody) : (b.mapLease (Lease.owing none)).mapLease (Lease.owing none) =
          b.mapLease (Lease.owing none) := by cases b <;> rfl
      rw [owing, twice]
    · have same : (s.withdraw p r).slot i = s.slot i := by
        rw [State.withdraw]
        exact State.slot_dropOwed_other here
      have later := ih (s := s.withdraw p r) (l := l) (by rwa [same]) fun some =>
        (List.mem_cons.1 (owes some)).resolve_left fun e => here e.symm
      rwa [same] at later

/-- The end of a wait leaves a live slot. -/
theorem slot_endWaitsQuiet_live {i : SlotNo} {l : Lease} (booked : s.booked) (live : (s.slot i).body.live? = some l)
    (js : List WaitNo) : (s.endWaitsQuiet js).slot i = s.slot i := by
  have both : (s.endWaitsQuiet js).booked ∧ (s.endWaitsQuiet js).slot i = s.slot i :=
    List.foldlRecOn (motive := fun t : State => t.booked ∧ t.slot i = s.slot i) js _ ⟨booked, rfl⟩
      fun t k j _ => ⟨(fades_endWaitQuiet (ls := []) t j).booked k.1, by
        cases e : t.wait j with
        | queued w r a =>
          rw [State.endWaitQuiet_queued e, State.setWait_slot, State.slot_leaveQueue, if_neg, k.2]
          rintro rfl
          have dead := (SlotBody.client_of_reservedFor (k.1.1 j w r i e)).2
          rw [k.2, live] at dead
          exact Option.some_ne_none l dead
        | _ => simp only [State.endWaitQuiet, e, k.2]⟩
  exact both.2

/-- A slot loses its deadline when its pending upgrade is cleared, and nothing else. -/
theorem slot_clearUpgrades (s : State) (ns : List ResNo) (i : SlotNo) :
    (s.clearUpgrades ns).slot i = s.slot i
      ∨ (s.clearUpgrades ns).slot i = { s.slot i with body := (s.slot i).body.dropDeadline } := by
  have twice (b : SlotBody) : b.dropDeadline.dropDeadline = b.dropDeadline := by cases b <;> rfl
  refine List.foldlRecOn (motive := fun t : State => t.slot i = s.slot i
    ∨ t.slot i = { s.slot i with body := (s.slot i).body.dropDeadline }) ns _ (.inl rfl) fun t h n _ => ?_
  simp only [State.clearUpgrade]
  split
  · exact h
  · rename_i k _
    rw [State.slot_setBody]
    split
    · rename_i same
      subst same
      right
      rcases h with h | h <;> simp only [State.setRecord_slot, h, twice]
    · exact h

/-- What an ORPHAN port leaves of a slot with the lease `l`. -/
def SlotBody.orphaned (l : Lease) : SlotBody → SlotBody
  | .revoking x g => .revoking { x with owed := none } g
  | .free | .reserved _ | .active _ _ | .ended _ _ _ => .active { l with owed := none } none

/-- A live body that has come to owe nothing, and has no deadline. -/
theorem SlotBody.eq_orphaned {a b : SlotBody} {l : Lease} (live : a.live? = some l)
    (h : b = a.mapLease (Lease.owing none) ∨ b = (a.mapLease (Lease.owing none)).dropDeadline)
    (calm : ∀ x d, b ≠ .active x (some d)) : b = a.orphaned l := by
  cases a with
  | active x d =>
    obtain rfl : x = l := Option.some.inj live
    rcases h with rfl | rfl
    · cases d with
      | none => rfl
      | some d => exact absurd rfl (calm _ d)
    · rfl
  | revoking x g => rcases h with rfl | rfl <;> rfl
  | _ => exact absurd live (Option.some_ne_none l).symm

/-- Under ORPHAN the leases of the port's clients run on with nothing owed and no pending upgrade. -/
theorem State.resetPort_orphan (lease : leaseLaw s) (owed : owedLaw s) (upgrade : upgradeLaw s)
    (policy : (s.side p).policy = .orphan) {i : SlotNo} {l : Lease} (live : (s.slot i).body.live? = some l)
    (on : l.client.port = p) :
    (s.resetPort p).1.slot i =
      { generation := (s.slot i).generation, body := (s.slot i).body.orphaned l } := by
  have withdrawn : (s.resetBegun p).slot i =
      { s.slot i with body := (s.slot i).body.mapLease (Lease.owing none) } :=
    State.slot_withdrawAll_live (s := s.setPort _ _) live fun owes =>
      ((owed.1 p).2 _).2 ⟨l, SlotBody.lease_of_live live, on, owes⟩
  have live' : ((s.resetBegun p).slot i).body.live? = some (l.owing none) := by
    rw [withdrawn, SlotBody.live_mapLease, live]
    rfl
  obtain ⟨lease', -, -⟩ := State.resetBegun_laws lease owed p
  have waited := slot_endWaitsQuiet_live (booked_of_leaseLaw lease') live' ((s.resetBegun p).portWaits p)
  have ended : s.resetEnded p = (s.resetWaits p).clearUpgrades
      ((s.resetWaits p).upgradeResources ((s.resetBegun p).portLeases p)) := by
    rw [State.resetEnded, State.resetEnding, policy]
    rfl
  have slot := slot_clearUpgrades (s.resetWaits p) ((s.resetWaits p).upgradeResources ((s.resetBegun p).portLeases p)) i
  rw [← ended, State.resetWaits, waited, withdrawn] at slot
  have client : ((s.resetEnded p).slot i).body.client? = some l.client := by
    have before := (SlotBody.client_mapLease (f := Lease.owing none) (fun _ => rfl) (s.slot i).body).trans
      (SlotBody.client_of_live live)
    rcases slot with e | e <;> rw [e]
    · exact before
    · exact (SlotBody.client_dropDeadline _).trans before
  have laws : (s.resetEnded p).ledger.Upgrades := by
    rw [ended]
    exact upgrades_clearUpgrades (State.upgrades_resetWaits lease owed upgrade p) _
  have calm : ∀ x d, ((s.resetEnded p).slot i).body ≠ .active x (some d) := fun x d e =>
    (State.calm_resetEnded lease owed upgrade p).upgrades x.resource i
      ((laws.named _ i).2 ((SlotBody.upgrades_iff _ _).2 ⟨x, d, e, rfl⟩)) l.client client on
  rw [(State.resetPort_passes lease owed upgrade p).slots i l.client client on]
  have body := SlotBody.eq_orphaned live (slot.imp (congrArg Slot.body) (congrArg Slot.body)) calm
  have generation : ((s.resetEnded p).slot i).generation = (s.slot i).generation := by
    rcases slot with e | e <;> rw [e]
  rw [← body, ← generation]

/-- What RESET_PORT answers (R117, R118). -/
theorem State.resetPort_reply (booked : s.booked) :
    (s.resetPort p).2 =
      { status := .ok
        extra := [byteOf (s.port (.client p)).fifo.length, byteOf (s.port (.client p)).queue.length,
          byteOf (s.side p).owed.length, byteOf (s.portWaits p).length,
          byteOf (match (s.side p).policy with
            | .release => (s.portLeases p).length
            | .orphan => 0)] } := by
  have ending : (s.resetEnding p).length = match (s.side p).policy with
      | .release => (s.portLeases p).length
      | .orphan => 0 := by
    rw [State.resetEnding]
    cases (s.side p).policy with
    | release => exact congrArg List.length (State.portLeases_resetBegun booked)
    | orphan => rfl
  rw [← ending, ← s.portWaits_resetBegun p]
  rfl

theorem State.steady_resetPort (s : State) (p : CPort) : (s.resetPort p).1.steady = s.steady := by
  simp [State.resetPort]

/-- Settles O42: RESET_PORT's ends empty the port, and the grant rules pass its clients by. -/
theorem resetPortClearsPort : Obligations.ResetPortClearsPort := by
  intro s c f lease owed upgrade asks
  obtain ⟨port, none⟩ := State.resetPort_port lease owed upgrade c.port
  obtain ⟨waits, dead, release⟩ := State.resetPort_leaves lease owed upgrade c.port
  have steady := s.steady_resetPort c.port
  have queue : ((s.resetPort c.port).1.port (.client c.port)).queue = [] := by rw [port]; rfl
  refine ⟨(s.resetPort c.port).1, exec_decided (d := resetPortDecision) rfl asks (Prod.ext rfl ?_), queue, none, ?_,
    by rw [port]; rfl, by rw [port]; rfl, by rw [port]; rfl, by rw [port]; rfl, fun j e => ?_, fun i off e => ?_,
    fun policy i e => ?_, fun policy i l live on => State.resetPort_orphan lease owed upgrade policy live on,
    congrArg Steady.array steady, congrArg Steady.store steady, congrArg Steady.epoch steady,
    congrArg Steady.prescale steady⟩
  · rw [← State.portWaits_eq, ← State.portLeases_eq]
    exact State.resetPort_reply (booked_of_leaseLaw lease)
  · rw [State.clientAnswer, State.answer, State.port_placeResponse, if_pos rfl]
    exact congrArg (· ++ _) queue
  · obtain ⟨w, hw, on⟩ := Option.map_eq_some_iff.1 e
    exact waits j w hw on
  · obtain ⟨d, hd, on⟩ := Option.map_eq_some_iff.1 e
    exact dead i d off hd on
  · obtain ⟨d, hd, on⟩ := Option.map_eq_some_iff.1 e
    exact (release policy).slots i d hd on

end Sys2Proof.Machine
end

section
/-! PROOFS. Every step keeps the array in its canonical form, whatever the array physically does (R135; log 4,
log 6). -/

namespace Sys2Proof.Machine

variable {s t : State}

/-! ### What the operations, the loss and the start-up leave of the array -/

theorem array_runWriteSettings (s : State) (x : Settings) (phys : Quirks) :
    (s.runWriteSettings x phys).array = (runPlan (s.planOf (.writeSettings x)) phys s.array).array := by
  simp only [State.runWriteSettings]
  split <;> rfl

theorem array_runInitHeader (s : State) (base : Nat) (phys : Quirks) :
    (s.runInitHeader base phys).array = (runPlan (s.planOf (.initHeader base)) phys s.array).array := by
  simp only [State.runInitHeader]
  split <;> rfl

theorem State.runPlanOf_wf (h : Memory.wf s.array) (op : StoreOp) (phys : Quirks) :
    Memory.wf (runPlan (s.planOf op) phys s.array).array :=
  runPlan_wf (s.planOf_inside op) phys h

/-- A completion leaves the array its operation has come to. -/
theorem State.array_complete (s : State) (op : StoreOp) (r : OpResult) : (s.complete op r).array = r.array :=
  congrArg Ground.array (ground_complete s op r)

theorem State.interrupted_wf (h : Memory.wf s.array) (done : Quirks) : Memory.wf (s.interrupted done) := by
  cases running : s.store.running with
  | some op => exact State.interrupted_cases running h (State.cutShort_wf h op done)
  | none =>
    rcases State.interrupted_of_idle done running with e | e <;> rw [e]
    · exact h
    · exact interruptPlan_wf (startUpPlan_inside _) done h

theorem headerWork_inside {m : List Host.Cell} {h : HPage} (selected : selectHeader m = some h) :
    ∀ st ∈ headerWork m h, st.inside := by
  simpa only [startUpPlan, selected] using startUpPlan_inside m

theorem array_startUpWork {m : List Host.Cell} {h : HPage} (selected : selectHeader m = some h) (phys : Quirks) :
    (startUpWork m phys).array = (runPlan (headerWork m h) phys m).array := by
  simp only [startUpWork, selected]
  generalize runPlan (headerWork m h) phys m = r
  split
  · rfl
  · split <;> rfl

/-- The header work that a start-up does, or leaves undone where it finds no page, keeps the canonical form. -/
theorem startUpFound_wf {m : List Host.Cell} (h : Memory.wf m) (run : StartUpRun) :
    Memory.wf (startUpFound m run).array := by
  simp only [startUpFound]
  split
  · exact h
  · cases selected : selectHeader m with
    | none => simpa only [startUpWork, selected, noHeader] using h
    | some page =>
      rw [array_startUpWork selected]
      exact runPlan_wf (headerWork_inside selected) run.phys h

theorem State.array_load (s : State) (r : StartResult) : (s.load r).array = r.array := by
  simp [State.load, allClientPorts, State.pushMessage]

/-! ### Every command -/

/-- Where a command has a next state, the array is in its canonical form if it was. -/
def ArrayTo (s : State) (o : Host.Outcome State Fault Refusal) : Prop :=
  ∀ t : State, o = .next t → arrayLaw s → arrayLaw t

theorem arrayTo_next (h : arrayLaw s → arrayLaw t) : ArrayTo s (.next t) := by
  rintro u e
  obtain rfl := Host.Outcome.next.inj e
  exact h

theorem arrayTo_self : ArrayTo s (.next s) := arrayTo_next id

theorem arrayLaw_of_array (h : t.array = s.array) : arrayLaw s → arrayLaw t := by
  simp only [arrayLaw, h]
  exact id

theorem arrayTo_resetAssert (done : Quirks) : ArrayTo s (execResetAssert done s) := by
  simp only [execResetAssert]
  split
  · exact arrayTo_self
  · exact arrayTo_next fun law => State.interrupted_wf law done

theorem arrayTo_powerLoss (done : Quirks) : ArrayTo s (execPowerLoss done s) := by
  simp only [execPowerLoss]
  split
  · exact arrayTo_next fun law => State.interrupted_wf law done
  · exact arrayTo_self

theorem arrayTo_restart (done : Quirks) : ArrayTo s (execRestart done s) := by
  refine arrayTo_next ?_
  split
  · split
    · split
      · split
        · exact fun law => State.interrupted_wf law done
        · exact id
      · exact id
    · exact id
    · exact id
  · exact id

theorem arrayTo_startUpComplete (run : StartUpRun) : ArrayTo s (execStartUpComplete run s) := by
  refine arrayTo_next fun law => ?_
  split
  · rw [arrayLaw, State.array_load]
    exact startUpFound_wf law run
  · exact law

/-- A completion keeps the canonical form where the operation has run its own steps on the array. -/
theorem arrayTo_complete {op : StoreOp} {r : OpResult} {phys : Quirks}
    (h : r.array = (runPlan (s.planOf op) phys s.array).array) : ArrayTo s (.next (s.complete op r)) :=
  arrayTo_next fun law => by
    rw [arrayLaw, State.array_complete, h]
    exact State.runPlanOf_wf law op phys

theorem arrayTo_programEntryComplete (phys : Quirks) : ArrayTo s (execProgramEntryComplete phys s) := by
  simp only [execProgramEntryComplete]
  split
  · exact arrayTo_complete rfl
  · exact arrayTo_self

theorem arrayTo_erasePageComplete (phys : Quirks) : ArrayTo s (execErasePageComplete phys s) := by
  simp only [execErasePageComplete]
  split
  · exact arrayTo_complete rfl
  · exact arrayTo_self

theorem arrayTo_eraseDirectoryComplete (phys : Quirks) : ArrayTo s (execEraseDirectoryComplete phys s) := by
  simp only [execEraseDirectoryComplete]
  split
  · exact arrayTo_complete rfl
  · exact arrayTo_self

theorem arrayTo_writeSettingsComplete (phys : Quirks) : ArrayTo s (execWriteSettingsComplete phys s) := by
  simp only [execWriteSettingsComplete]
  split
  · exact arrayTo_complete (array_runWriteSettings s _ phys)
  · exact arrayTo_self

theorem arrayTo_initHeaderComplete (phys : Quirks) : ArrayTo s (execInitHeaderComplete phys s) := by
  simp only [execInitHeaderComplete]
  split
  · rename_i base _
    split
    · refine arrayTo_next fun law => ?_
      rw [arrayLaw, State.startUpBegin, array_runInitHeader]
      exact State.runPlanOf_wf law (.initHeader base) phys
    · exact arrayTo_complete (array_runInitHeader s _ phys)
  · exact arrayTo_self

/-- Every command keeps the array in its canonical form: the commands that leave the ground leave it too. -/
theorem arrayTo_exec (c : Instr) (s : State) : ArrayTo s (exec c s) := by
  cases changes : changesGround c with
  | false => exact fun t h => arrayLaw_of_array (congrArg Ground.array (groundTo_exec changes s t h))
  | true =>
    cases c with
    | powerOn => exact fun t h => arrayLaw_of_array (array_powerOn h)
    | resetAssert done => exact arrayTo_resetAssert done
    | resetRelease => exact fun t h => arrayLaw_of_array (array_resetRelease h)
    | powerLoss done => exact arrayTo_powerLoss done
    | startUpComplete run => exact arrayTo_startUpComplete run
    | restart done => exact arrayTo_restart done
    | setTimebase => exact fun t h => arrayLaw_of_array (array_setTimebase h)
    | tick periods => exact fun t h => arrayLaw_of_array (array_tick h)
    | programEntryComplete phys => exact arrayTo_programEntryComplete phys
    | erasePageComplete phys => exact arrayTo_erasePageComplete phys
    | eraseDirectoryComplete phys => exact arrayTo_eraseDirectoryComplete phys
    | writeSettingsComplete phys => exact arrayTo_writeSettingsComplete phys
    | initHeaderComplete phys => exact arrayTo_initHeaderComplete phys
    | _ => simp [changesGround] at changes

/-- Settles O4: a step takes the front command from the queue and carries it out. -/
theorem arrayLawKept : Obligations.ArrayLawKept := by
  intro s t law h
  simp only [step] at h
  split at h
  · exact arrayTo_self t h law
  · rename_i c rest _
    exact arrayTo_exec c { s with pending := rest } t h law

end Sys2Proof.Machine
end

section
/-! PROOFS. Every step keeps the store's law: nothing runs in a fault or with a notice held, and nothing stays LAUNCHED
once the store is ready (R122, R136, R141). -/

namespace Sys2Proof.Machine

variable {s t : State} {st : Store}

/-! ### The law of a store -/

/-- The law of the store while the part proceeds: the last clause of `pipelineLaw` holds of it then. -/
structure Store.Lawful (st : Store) : Prop where
  running : st.running.isSome = true → st.fault = none ∧ st.held = []
  fault : st.fault.isSome = true → ∀ op, st.stage ≠ .launched op
  held : st.held.length ≤ 2
  launched : ∀ op, st.stage = .launched op → st.running ≠ none ∨ st.held ≠ []

theorem Store.Lawful.pipelineLaw (h : t.store.Lawful) : pipelineLaw t :=
  ⟨h.running, h.fault, h.held, fun _ => h.launched⟩

theorem Store.lawful_of_alive (alive : s.alive = true) (law : pipelineLaw s) : s.store.Lawful := by
  obtain ⟨running, fault, held, launched⟩ := law
  exact ⟨running, fault, held, launched alive⟩

theorem alive_of_serving (h : s.serving = true) : s.alive = true := by
  simp only [State.serving, Bool.and_eq_true] at h
  exact h.1

theorem Store.lawful_initial : Store.initial.Lawful :=
  ⟨nofun, nofun, Nat.zero_le _, nofun⟩

/-- The stage EMPTY or HELD leaves nothing launched. -/
theorem Store.Lawful.setStage (h : st.Lawful) {x : Stage} (idle : ∀ op, x ≠ .launched op) :
    { st with stage := x }.Lawful :=
  ⟨h.running, fun _ => idle, h.held, fun op e => absurd e (idle op)⟩

/-! ### Ready and launched (R136, R141) -/

theorem Store.ready_iff : st.ready = true ↔ st.running = none ∧ st.held = [] ∧ st.fault = none := by
  simp [Store.ready, and_assoc]

theorem Store.ready_eq_false (busy : st.running ≠ none ∨ st.held ≠ [] ∨ st.fault ≠ none) : st.ready = false := by
  rw [Bool.eq_false_iff]
  intro ready
  obtain ⟨idle, unheld, clear⟩ := Store.ready_iff.1 ready
  simp [idle, unheld, clear] at busy

/-- The store takes a command and runs it: nothing stands in the stage then. -/
theorem Store.lawful_start (ready : st.ready = true) (op : StoreOp) :
    { st with running := some op, stage := .empty }.Lawful := by
  obtain ⟨-, held, fault⟩ := Store.ready_iff.1 ready
  exact ⟨fun _ => ⟨fault, held⟩, fun _ _ => nofun, by simp [held], nofun⟩

theorem Store.startLaunched_of_launched {op : StoreOp} (launched : st.stage = .launched op) :
    st.startLaunched = if st.ready then { st with running := some op, stage := .empty } else st := by
  simp only [Store.startLaunched, launched]

theorem Store.startLaunched_of_idle (idle : ∀ op, st.stage ≠ .launched op) : st.startLaunched = st := by
  cases stage : st.stage with
  | launched op => exact absurd stage (idle op)
  | empty => simp only [Store.startLaunched, stage]
  | held op => simp only [Store.startLaunched, stage]

theorem Store.startLaunched_fault (st : Store) : st.startLaunched.fault = st.fault := by
  simp only [Store.startLaunched]
  split
  · split <;> rfl
  all_goals rfl

theorem Store.startLaunched_of_busy (busy : st.ready = false) : st.startLaunched = st := by
  cases stage : st.stage with
  | launched op => rw [Store.startLaunched_of_launched stage, if_neg (by simp [busy])]
  | empty => simp only [Store.startLaunched, stage]
  | held op => simp only [Store.startLaunched, stage]

/-- What is launched starts where the store is ready, so that the law of what is launched holds afterwards. -/
theorem Store.lawful_startLaunched (running : st.running.isSome = true → st.fault = none ∧ st.held = [])
    (fault : st.fault.isSome = true → ∀ op, st.stage ≠ .launched op) (held : st.held.length ≤ 2) :
    st.startLaunched.Lawful := by
  cases stage : st.stage with
  | launched op =>
    rw [Store.startLaunched_of_launched stage]
    split
    · rename_i ready
      exact Store.lawful_start ready op
    · rename_i busy
      refine ⟨running, fault, held, fun _ _ => ?_⟩
      by_contra ready
      simp only [not_or, not_not] at ready
      refine busy (Store.ready_iff.2 ⟨ready.1, ready.2, ?_⟩)
      cases e : st.fault with
      | none => rfl
      | some f => exact absurd stage (fault (by simp [e]) op)
  | empty =>
    rw [Store.startLaunched_of_idle (by simp [stage])]
    exact ⟨running, fault, held, by simp [stage]⟩
  | held op =>
    rw [Store.startLaunched_of_idle (by simp [stage])]
    exact ⟨running, fault, held, by simp [stage]⟩

theorem Store.Lawful.startLaunched (h : st.Lawful) : st.startLaunched.Lawful :=
  Store.lawful_startLaunched h.running h.fault h.held

/-! ### Store notices, held notices and completions (R122, R123, R141) -/

/-- A store notice enters port S's queue where none is held and there is room (R122). -/
theorem State.raiseStoreNotice_of_room (free : s.heldNotices = 0) (room : s.supRoom = true) (m : Message) :
    s.raiseStoreNotice m = s.pushMessage .sup m := by
  simp [State.raiseStoreNotice, free, room]

/-- Elsewhere the store holds it, behind those it holds already (R122). -/
theorem State.raiseStoreNotice_of_wait (wait : s.heldNotices ≠ 0 ∨ s.supRoom = false) (m : Message) :
    s.raiseStoreNotice m = s.setStore { s.store with held := s.store.held ++ [m] } := by
  rw [State.raiseStoreNotice, if_neg]
  rcases wait with held | full <;> simp [*]

/-- Either way the store holds at most one notice more, and is else as it was. -/
theorem State.store_raiseStoreNotice (s : State) (m : Message) :
    ∃ h : List Message, h.length ≤ s.store.held.length + 1
      ∧ (s.raiseStoreNotice m).store = { s.store with held := h } := by
  simp only [State.raiseStoreNotice]
  split
  · exact ⟨s.store.held, Nat.le_succ _, rfl⟩
  · exact ⟨s.store.held ++ [m], by simp, rfl⟩

/-- The stage once a LAUNCHED command has been dropped (R141, step 4). -/
def Stage.skipped : Stage → Stage
  | .empty | .launched _ => .empty
  | .held op => .held op

theorem Stage.skipped_ne_launched (x : Stage) (op : StoreOp) : x.skipped ≠ .launched op := by
  cases x <;> exact nofun

theorem State.store_skipLaunched (s : State) : ∃ h : List Message, h.length ≤ s.store.held.length + 1
    ∧ s.skipLaunched.store = { s.store with stage := s.store.stage.skipped, held := h } := by
  cases stage : s.store.stage with
  | launched op =>
    obtain ⟨h, short, store⟩ :=
      State.store_raiseStoreNotice (s.setStore { s.store with stage := .empty }) (storeSkipped op)
    refine ⟨h, short, ?_⟩
    simp only [State.skipLaunched, stage, store]
    rfl
  | empty =>
    refine ⟨s.store.held, Nat.le_succ _, ?_⟩
    simp only [State.skipLaunched, stage]
    exact congrArg (fun x => { s.store with stage := x }) stage
  | held op =>
    refine ⟨s.store.held, Nat.le_succ _, ?_⟩
    simp only [State.skipLaunched, stage]
    exact congrArg (fun x => { s.store with stage := x }) stage

/-- A completion with a fault sets it, and drops what is launched (R141, steps 1 to 4). -/
theorem State.store_finishOp_fault (s : State) (op : StoreOp) (f : StoreFault) (result : List Byte) :
    ∃ h : List Message, h.length ≤ s.store.held.length + 2
      ∧ (s.finishOp op (some f) result).store =
        { running := none, stage := s.store.stage.skipped, fault := some f, held := h } := by
  obtain ⟨h, short, raised⟩ := State.store_raiseStoreNotice
    (s.setStore { s.store with running := none, fault := some f }) (storeDone op (some f) result)
  obtain ⟨h', short', skipped⟩ := State.store_skipLaunched
    ((s.setStore { s.store with running := none, fault := some f }).raiseStoreNotice (storeDone op (some f) result))
  rw [raised] at short' skipped
  exact ⟨h', Nat.le_trans short' (Nat.succ_le_succ short), skipped⟩

/-- A completion without one leaves the fault as it was, and starts what is launched once the store is ready
(R141, steps 1 to 3 and 5). -/
theorem State.store_finishOp_ok (s : State) (op : StoreOp) (result : List Byte) :
    ∃ h : List Message, h.length ≤ s.store.held.length + 1
      ∧ (s.finishOp op none result).store = { s.store with running := none, held := h }.startLaunched := by
  obtain ⟨h, short, raised⟩ := State.store_raiseStoreNotice
    (s.setStore { s.store with running := none }) (storeDone op none result)
  exact ⟨h, short, congrArg Store.startLaunched raised⟩

/-- A completion in a lawful store finds no notice held, and leaves at most its own two (R141). -/
theorem lawful_finishOp (held : s.store.held = []) (clear : s.store.fault = none) (op : StoreOp)
    (fault : Option StoreFault) (result : List Byte) : (s.finishOp op fault result).store.Lawful := by
  cases fault with
  | some f =>
    obtain ⟨h, short, store⟩ := s.store_finishOp_fault op f result
    rw [held] at short
    rw [store]
    exact ⟨nofun, fun _ => Stage.skipped_ne_launched _, short, fun x e => absurd e (Stage.skipped_ne_launched _ x)⟩
  | none =>
    obtain ⟨h, short, store⟩ := s.store_finishOp_ok op result
    rw [held] at short
    rw [store]
    exact Store.lawful_startLaunched nofun (by simp [clear]) (Nat.le_succ_of_le short)

/-- A held notice enters: with the last one gone, what is launched starts (R123, R141). -/
theorem lawful_deliverHeldOne (h : s.deliverHeldOne = some t) (law : s.store.Lawful) : t.store.Lawful := by
  simp only [State.deliverHeldOne] at h
  split at h
  · split at h
    · rename_i m rest held
      obtain rfl := Option.some.inj h
      have idle : s.store.running = none := by
        cases e : s.store.running with
        | none => rfl
        | some op => simpa [held] using (law.running (by simp [e])).2
      refine Store.lawful_startLaunched (by simp [idle]) law.fault ?_
      have := law.held
      simp only [held, List.length_cons] at this
      exact Nat.le_of_succ_le this
    · obtain ⟨r, -, rfl⟩ := Option.map_eq_some_iff.1 h
      exact law
  · simp at h

theorem lawful_deliverHeld (fuel : Nat) (law : s.store.Lawful) : (State.deliverHeld fuel s).store.Lawful := by
  induction fuel generalizing s with
  | zero => exact law
  | succ n ih =>
    simp only [State.deliverHeld]
    split
    · exact law
    · rename_i one
      exact ih (lawful_deliverHeldOne one law)

/-! ### Where a command has a next state -/

/-- Where a command has a next state, the law of the pipeline holds in it if it did before. -/
def PipelineTo (s : State) (o : Host.Outcome State Fault Refusal) : Prop :=
  ∀ t : State, o = .next t → pipelineLaw s → pipelineLaw t

theorem pipelineTo_next (h : pipelineLaw s → pipelineLaw t) : PipelineTo s (.next t) := by
  rintro u e
  obtain rfl := Host.Outcome.next.inj e
  exact h

theorem pipelineTo_self : PipelineTo s (.next s) := pipelineTo_next id

theorem pipelineLaw_congr (hs : t.store = s.store) (ha : t.alive = s.alive) : pipelineLaw s → pipelineLaw t := by
  simp only [pipelineLaw, hs, ha]
  exact id

theorem store_of_steady (h : t.steady = s.steady) : t.store = s.store := congrArg Steady.store h

theorem pipelineLaw_of_steady (h : t.steady = s.steady) : pipelineLaw s → pipelineLaw t :=
  pipelineLaw_congr (store_of_steady h) (congrArg (fun x : Steady => x.powered && !x.resetLow) h)

/-- While the part proceeds, the store's own law is the whole of it. -/
theorem pipelineLaw_of_alive (alive : s.alive = true) (h : s.store.Lawful → t.store.Lawful) :
    pipelineLaw s → pipelineLaw t := fun law => (h (Store.lawful_of_alive alive law)).pipelineLaw

theorem pipelineLaw_of_serving (serving : s.serving = true) (h : s.store.Lawful → t.store.Lawful) :
    pipelineLaw s → pipelineLaw t := pipelineLaw_of_alive (alive_of_serving serving) h

/-- A row that acts only where its condition holds, and there leaves the store as it was (log 12). -/
theorem pipelineTo_ite {c : Prop} [Decidable c] (h : t.steady = s.steady) :
    PipelineTo s (.next (if c then t else s)) := by
  split
  · exact pipelineTo_next (pipelineLaw_of_steady h)
  · exact pipelineTo_self

/-! ### Requests -/

theorem pipelineTo_client {k : Kind} {d : Client → Frame → State → Decision}
    (store : ∀ c f, (d c f s).1.store = s.store) : PipelineTo s (.next (s.clientRequest k d)) := by
  refine pipelineTo_next ?_
  rcases State.clientRequest_cases (s := s) (k := k) d with e | ⟨p, f, a, hs, -, e⟩ | ⟨p, f, t, hs, -, -, e⟩
      <;> rw [e]
  · exact id
  · exact pipelineLaw_of_serving hs id
  · exact pipelineLaw_of_serving hs (store _ f ▸ id)

theorem pipelineTo_sup {k : Kind} {d : Frame → State → Decision}
    (lawful : ∀ f, s.store.Lawful → (d f s).1.store.Lawful) : PipelineTo s (.next (s.supRequest k d)) := by
  refine pipelineTo_next ?_
  rcases State.supRequest_cases (s := s) (k := k) d with e | ⟨f, a, hs, -, e⟩ | ⟨f, hs, -, e⟩ <;> rw [e]
  · exact id
  · exact pipelineLaw_of_serving hs id
  · exact pipelineLaw_of_serving hs (lawful f)

theorem pipelineTo_supStill {k : Kind} {d : Frame → State → Decision} (store : ∀ f, (d f s).1.store = s.store) :
    PipelineTo s (.next (s.supRequest k d)) := pipelineTo_sup fun f => by rw [store]; exact id

theorem pipelineTo_stageRequest {code : Byte} {len : Nat} {judge : Frame → State → Judged} :
    PipelineTo s (.next (s.stageRequest code len judge)) := by
  have staged (j : Judged) (law : s.store.Lawful) : (s.stageCommand j).1.store.Lawful := by
    simp only [State.stageCommand]
    split
    · exact law
    · exact law
    · split
      · exact law
      · exact law.setStage nofun
  refine pipelineTo_next ?_
  rcases State.stageRequest_cases (s := s) code len judge with e | ⟨f, a, hs, -, e⟩ | ⟨f, hs, -, e⟩ <;> rw [e]
  · exact id
  · exact pipelineLaw_of_serving hs id
  · exact pipelineLaw_of_serving hs (staged _)

/-- What is launched stays LAUNCHED only behind an operation or a held notice (R138). -/
theorem lawful_storeLaunch (f : Frame) (law : s.store.Lawful) : (storeLaunchDecision f s).1.store.Lawful := by
  simp only [storeLaunchDecision]
  split
  · exact law
  · rename_i clear
    split
    · exact law
    · exact law
    · split
      · rename_i op _ ready
        exact Store.lawful_start ready op
      · rename_i busy
        have clear : s.store.fault = none := by simpa using clear
        refine ⟨law.running, fun fault => absurd fault (by simp [State.setStore, clear]), law.held, fun _ _ => ?_⟩
        by_contra idle
        simp only [not_or, not_not] at idle
        exact busy (Store.ready_iff.2 ⟨idle.1, idle.2, clear⟩)

theorem lawful_storeDiscard (f : Frame) (law : s.store.Lawful) : (storeDiscardDecision f s).1.store.Lawful := by
  simp only [storeDiscardDecision]
  split
  · exact law
  · exact law
  · exact law.setStage nofun

theorem lawful_storeClear (f : Frame) (law : s.store.Lawful) : (storeClearDecision f s).1.store.Lawful :=
  ⟨fun running => ⟨rfl, (law.running running).2⟩, nofun, law.held, law.launched⟩

theorem pipelineTo_unknownRequestKind : PipelineTo s (execUnknownRequestKind s) := by
  simp only [execUnknownRequestKind]
  split
  · exact pipelineTo_self
  · split
    · exact pipelineTo_next (pipelineLaw_congr rfl rfl)
    · exact pipelineTo_self

theorem pipelineTo_dispatch : PipelineTo s (execDispatch s) := by
  simp only [execDispatch]
  split
  · split
    · split
      · exact pipelineTo_next (pipelineLaw_congr rfl rfl)
      · exact pipelineTo_self
    · exact pipelineTo_self
  · exact pipelineTo_self

theorem store_setTimebase (f : Frame) : (setTimebaseDecision f s).1.store = s.store := by
  simp only [setTimebaseDecision]
  split
  · rfl
  · split <;> rfl

theorem store_storeRead (f : Frame) : (storeReadDecision f s).1.store = s.store := by
  simp only [storeReadDecision]
  split <;> rfl

/-! ### Supply, RESET# and start-up (R136, R148, R149) -/

theorem pipelineLaw_startUpBegin (u : State) : pipelineLaw u.startUpBegin := Store.lawful_initial.pipelineLaw

theorem pipelineTo_powerOn : PipelineTo s (execPowerOn s) := by
  simp only [execPowerOn]
  split
  · exact pipelineTo_self
  · refine pipelineTo_next ?_
    split
    · rename_i low
      rintro ⟨running, fault, held, -⟩
      exact ⟨running, fault, held, by simp [State.alive, low]⟩
    · exact fun _ => pipelineLaw_startUpBegin _

theorem pipelineTo_resetAssert (done : Quirks) : PipelineTo s (execResetAssert done s) := by
  simp only [execResetAssert]
  split
  · exact pipelineTo_self
  · refine pipelineTo_next ?_
    rintro ⟨-, fault, held, -⟩
    exact ⟨nofun, fault, held, by simp [State.alive]⟩

theorem pipelineTo_resetRelease : PipelineTo s (execResetRelease s) := by
  simp only [execResetRelease]
  split
  · refine pipelineTo_next ?_
    split
    · exact fun _ => pipelineLaw_startUpBegin _
    · rename_i dead
      rintro ⟨running, fault, held, -⟩
      exact ⟨running, fault, held, by simp [State.alive, dead]⟩
  · exact pipelineTo_self

theorem pipelineTo_powerLoss (done : Quirks) : PipelineTo s (execPowerLoss done s) := by
  simp only [execPowerLoss]
  split
  · exact pipelineTo_next fun _ => Store.lawful_initial.pipelineLaw
  · exact pipelineTo_self

theorem pipelineTo_restart (done : Quirks) : PipelineTo s (execRestart done s) := by
  refine pipelineTo_next ?_
  split
  · split
    · split
      · split
        · exact fun _ => pipelineLaw_startUpBegin _
        · exact pipelineLaw_congr rfl rfl
      · exact id
    · exact id
    · exact id
  · exact id

theorem pipelineTo_startUpComplete (run : StartUpRun) : PipelineTo s (execStartUpComplete run s) := by
  refine pipelineTo_next ?_
  split
  · exact pipelineLaw_congr (by simp [State.load, allClientPorts]) (by simp [State.load, allClientPorts, State.alive])
  · exact id

/-! ### Completions (R141) -/

theorem pipelineLaw_complete {op : StoreOp} (running : s.runningOp = some op) (r : OpResult) :
    pipelineLaw s → pipelineLaw (s.complete op r) := by
  simp only [State.runningOp] at running
  split at running
  · rename_i serving
    refine pipelineLaw_of_serving serving fun law => ?_
    obtain ⟨fault, held⟩ := law.running (by simp [running])
    exact lawful_finishOp (s := { s with array := r.array, active := r.active }) held fault op r.fault r.result
  · simp at running

/-- Every completion but that of an INIT_HEADER ends the same way. -/
theorem pipelineTo_storeComplete :
    (∀ q, PipelineTo s (execProgramEntryComplete q s)) ∧ (∀ q, PipelineTo s (execErasePageComplete q s))
      ∧ (∀ q, PipelineTo s (execEraseDirectoryComplete q s)) ∧ PipelineTo s (execBlankCheckComplete s)
      ∧ PipelineTo s (execScanCrcComplete s) ∧ ∀ q, PipelineTo s (execWriteSettingsComplete q s) := by
  refine ⟨fun q => ?_, fun q => ?_, fun q => ?_, ?_, ?_, fun q => ?_⟩
  all_goals
    simp only [execProgramEntryComplete, execErasePageComplete, execEraseDirectoryComplete, execBlankCheckComplete,
      execScanCrcComplete, execWriteSettingsComplete]
    split
    · rename_i running
      exact pipelineTo_next (pipelineLaw_complete running _)
    · exact pipelineTo_self

theorem pipelineTo_initHeaderComplete (phys : Quirks) : PipelineTo s (execInitHeaderComplete phys s) := by
  simp only [execInitHeaderComplete]
  split
  · rename_i running
    refine pipelineTo_next ?_
    split
    · exact fun _ => pipelineLaw_startUpBegin _
    · exact pipelineLaw_complete running _
  · exact pipelineTo_self

theorem pipelineTo_launchedCommandStart : PipelineTo s (execLaunchedCommandStart s) := by
  refine pipelineTo_next ?_
  split
  · rename_i serving
    exact pipelineLaw_of_serving serving Store.Lawful.startLaunched
  · exact id

theorem pipelineTo_heldNoticeDelivery : PipelineTo s (execHeldNoticeDelivery s) := by
  refine pipelineTo_next ?_
  split
  · rename_i serving
    exact pipelineLaw_of_serving serving (lawful_deliverHeld _)
  · exact id

/-! ### Transactions (R101 to R105) -/

/-- Notices that waited for the room of a port follow, and what is launched may start (R104, R123, R141). -/
theorem lawful_deliverTo (p : PortId) (law : s.store.Lawful) : (s.deliverTo p).store.Lawful := by
  cases p with
  | client q =>
    rw [State.deliverTo, store_of_steady (steady_deliverAllOwed s q)]
    exact law
  | sup => exact lawful_deliverHeld _ law

theorem steady_beginTransfer (s : State) (p : PortId) (k : TransKind) : (s.beginTransfer p k).steady = s.steady := by
  simp only [State.beginTransfer]
  split <;> rfl

theorem steady_reportTransfer (s : State) (p : PortId) (k : TransKind) :
    (s.reportTransfer p k).steady = s.steady := by
  simp only [State.reportTransfer]
  split <;> rfl

theorem steady_fixTransfer (s : State) (p : PortId) (k : TransKind) : (s.fixTransfer p k).steady = s.steady := by
  simp only [State.fixTransfer]
  split <;> rfl

section
variable {ending : State → State} (lawful : ∀ u, u.store.Lawful → (ending u).store.Lawful)

include lawful

/-- A rising edge takes effect only on a part that proceeds (R100, R101). -/
theorem pipelineLaw_endTransfer (s : State) (p : PortId) (k : TransKind) (bits : Nat) :
    pipelineLaw s → pipelineLaw (s.endTransfer p k bits ending) := by
  simp only [State.endTransfer]
  split
  · rename_i transfers
    simp only [State.transfers, Bool.and_eq_true] at transfers
    refine pipelineLaw_of_alive transfers.1 fun law => ?_
    split
    · refine lawful _ ?_
      split
      · rw [store_of_steady (steady_fixTransfer s p k)]
        exact law
      · rw [store_of_steady (steady_reportTransfer s p k)]
        exact law
    · exact law
  · exact id

theorem pipelineTo_transact (s : State) (p : PortId) (k : TransKind) (e : Edge) (bits : Nat) :
    PipelineTo s (.next (s.transact p k e bits ending)) := by
  refine pipelineTo_next ?_
  cases e with
  | begins => exact pipelineLaw_of_steady (steady_beginTransfer s p k)
  | reports => exact pipelineLaw_of_steady (steady_reportTransfer s p k)
  | fixes => exact pipelineLaw_of_steady (steady_fixTransfer s p k)
  | ends => exact pipelineLaw_endTransfer lawful s p k bits
  | whole =>
    simp only [State.transact]
    split
    · exact fun law =>
        pipelineLaw_endTransfer lawful _ p k bits (pipelineLaw_of_steady (steady_beginTransfer s p k) law)
    · exact id

end

theorem lawful_finishWrite (p : PortId) (sent : List Byte) (u : State) (law : u.store.Lawful) :
    (u.finishWrite p sent).store.Lawful := by
  simp only [State.finishWrite]
  split <;> exact law

theorem lawful_finishRead (p : PortId) (bits : Nat) (u : State) (law : u.store.Lawful) :
    (u.finishRead p bits).store.Lawful := by
  simp only [State.finishRead]
  split
  · split
    · split
      · exact lawful_deliverTo p law
      · exact law
    · exact law
  · exact law

theorem lawful_finishPlain (p : PortId) (bits : Nat) (u : State) (law : u.store.Lawful) :
    (u.finishPlain p bits).store.Lawful := by
  simp only [State.finishPlain]
  split <;> exact law

/-! ### What ticks end, and the grant rule's parts -/

theorem pipelineTo_leaseExpiry (i : SlotNo) : PipelineTo s (execLeaseExpiry i s) := by
  simp only [execLeaseExpiry]
  split
  · exact pipelineTo_self
  · split
    · exact pipelineTo_next (pipelineLaw_of_steady (by simp))
    · exact pipelineTo_self

theorem pipelineTo_graceEnd (i : SlotNo) : PipelineTo s (execGraceEnd i s) := by
  simp only [execGraceEnd]
  split
  · exact pipelineTo_self
  · split
    · exact pipelineTo_next (pipelineLaw_of_steady (by simp))
    · exact pipelineTo_self

theorem pipelineTo_waitTimeout (j : WaitNo) : PipelineTo s (execWaitTimeout j s) := by
  simp only [execWaitTimeout]
  split
  · exact pipelineTo_self
  · split
    · exact pipelineTo_next (pipelineLaw_of_steady (by simp))
    · exact pipelineTo_self

theorem pipelineTo_upgradeTimeout (n : ResNo) : PipelineTo s (execUpgradeTimeout n s) := by
  simp only [execUpgradeTimeout]
  split
  · exact pipelineTo_next (pipelineLaw_of_steady (by simp))
  · exact pipelineTo_self

theorem pipelineTo_grantFromQueue (n : ResNo) : PipelineTo s (execGrantFromQueue n s) := by
  refine pipelineTo_ite ?_
  cases granted : s.grantHead? n with
  | none => rfl
  | some t => exact steady_grantHead granted

theorem pipelineTo_activationApplication (n : ResNo) : PipelineTo s (execActivationApplication n s) := by
  simp only [execActivationApplication]
  split
  · split
    · exact pipelineTo_next (pipelineLaw_of_steady (by simp))
    · exact pipelineTo_self
  · exact pipelineTo_self

/-- A tick leaves the store as it was, at the timebase and at the tables (R75). -/
theorem pipelineTo_tick {c : Prop} [Decidable c] {u : State} (h : t.steady = u.steady) (hs : u.store = s.store)
    (ha : u.alive = s.alive) : PipelineTo s (.next (if c then t else s)) := by
  split
  · exact pipelineTo_next fun law => pipelineLaw_of_steady h (pipelineLaw_congr hs ha law)
  · exact pipelineTo_self

/-! ### Every command -/

/-- Every command keeps the law of the pipeline. -/
theorem pipelineTo_exec (c : Instr) (s : State) : PipelineTo s (exec c s) := by
  obtain ⟨program, page, directory, blankCheck, scanCrc, settings⟩ := pipelineTo_storeComplete (s := s)
  cases c with
  | powerOn => exact pipelineTo_powerOn
  | resetAssert done => exact pipelineTo_resetAssert done
  | resetRelease => exact pipelineTo_resetRelease
  | powerLoss done => exact pipelineTo_powerLoss done
  | startUpComplete run => exact pipelineTo_startUpComplete run
  | writeTransaction p e sent => exact pipelineTo_transact (lawful_finishWrite p sent) s p _ e _
  | readTransaction p e bits => exact pipelineTo_transact (lawful_finishRead p bits) s p _ e _
  | statusTransaction p e bits => exact pipelineTo_transact (lawful_finishPlain p bits) s p _ e _
  | unknownKindTransaction p e kind bits => exact pipelineTo_transact (lawful_finishPlain p bits) s p _ e _
  | unknownRequestKind => exact pipelineTo_unknownRequestKind
  | acquire => exact pipelineTo_client fun c f => (untouched_acquire c f).store
  | cancelWait => exact pipelineTo_client fun c f => (untouched_cancelWait c f).store
  | release => exact pipelineTo_client fun c f => (untouched_release c f).store
  | renew => exact pipelineTo_client fun c f => (untouched_renew c f).store
  | upgrade => exact pipelineTo_client fun c f => (untouched_upgrade c f).store
  | cancelUpgrade => exact pipelineTo_client fun c f => (untouched_cancelUpgrade c f).store
  | downgrade => exact pipelineTo_client fun c f => (untouched_downgrade c f).store
  | verify => exact pipelineTo_client fun c f => congrArg State.store (state_verify c f)
  | queryResource => exact pipelineTo_client fun _ _ => rfl
  | queryLease => exact pipelineTo_client fun c f => congrArg State.store (state_queryLease c f)
  | listMine => exact pipelineTo_client fun _ _ => rfl
  | detach => exact pipelineTo_client fun c _ => (untouched_detach c).store
  | resetPort => exact pipelineTo_client fun c _ => (framed_resetPort c.port).store
  | status => exact pipelineTo_supStill fun _ => rfl
  | readLease => exact pipelineTo_supStill fun f => (untouched_readLease f).store
  | readResource => exact pipelineTo_supStill fun _ => rfl
  | readQueue => exact pipelineTo_supStill fun f => (untouched_readQueue f).store
  | readWait => exact pipelineTo_supStill fun f => (untouched_readWait f).store
  | revoke => exact pipelineTo_supStill fun f => (untouched_revoke f).store
  | revokeResource => exact pipelineTo_supStill fun f => (untouched_revokeResource f).store
  | purgeClient => exact pipelineTo_supStill fun f => (untouched_purgeClient f).store
  | setTimebase => exact pipelineTo_supStill store_setTimebase
  | activate => exact pipelineTo_supStill fun f => (untouched_activate f).store
  | cancelActivation => exact pipelineTo_supStill fun f => (untouched_cancelActivation f).store
  | storeStageProgramEntry => exact pipelineTo_stageRequest
  | storeStageErasePage => exact pipelineTo_stageRequest
  | storeStageEraseDirectory => exact pipelineTo_stageRequest
  | storeStageBlankCheck => exact pipelineTo_stageRequest
  | storeStageScanCrc => exact pipelineTo_stageRequest
  | storeStageWriteSettings => exact pipelineTo_stageRequest
  | storeStageInitHeader => exact pipelineTo_stageRequest
  | storeLaunch => exact pipelineTo_sup lawful_storeLaunch
  | storeDiscard => exact pipelineTo_sup lawful_storeDiscard
  | storeClear => exact pipelineTo_sup lawful_storeClear
  | storeRead => exact pipelineTo_supStill store_storeRead
  | restart done => exact pipelineTo_restart done
  | tick periods => exact pipelineTo_tick (u := s.count periods) rfl rfl rfl
  | leaseTableTick => exact pipelineTo_tick (steady_leaseTick _) rfl rfl
  | waitPoolTick order => exact pipelineTo_tick (steady_waitTick _ order) rfl rfl
  | pendingUpgradesTick order => exact pipelineTo_tick (steady_upgradeTick _ order) rfl rfl
  | leaseExpiry i => exact pipelineTo_leaseExpiry i
  | graceEnd i => exact pipelineTo_graceEnd i
  | waitTimeout j => exact pipelineTo_waitTimeout j
  | upgradeTimeout n => exact pipelineTo_upgradeTimeout n
  | grantFromQueue n => exact pipelineTo_grantFromQueue n
  | upgradeGrant n => exact pipelineTo_ite (by simp)
  | activationApplication n => exact pipelineTo_activationApplication n
  | owedNoticeDelivery p => exact pipelineTo_ite (by simp)
  | heldNoticeDelivery => exact pipelineTo_heldNoticeDelivery
  | dispatch => exact pipelineTo_dispatch
  | programEntryComplete phys => exact program phys
  | erasePageComplete phys => exact page phys
  | eraseDirectoryComplete phys => exact directory phys
  | blankCheckComplete => exact blankCheck
  | scanCrcComplete => exact scanCrc
  | writeSettingsComplete phys => exact settings phys
  | initHeaderComplete phys => exact pipelineTo_initHeaderComplete phys
  | launchedCommandStart => exact pipelineTo_launchedCommandStart

/-- Settles O7: a step takes the front command from the queue and carries it out. -/
theorem pipelineLawKept : Obligations.PipelineLawKept := by
  intro s t law h
  simp only [step] at h
  split at h
  · exact pipelineTo_self t h law
  · rename_i c rest _
    exact pipelineTo_exec c { s with pending := rest } t h law

end Sys2Proof.Machine
end

section
/-! PROOFS. The store's requests: STORE_STAGE with its seven operations, STORE_LAUNCH, STORE_DISCARD and STORE_CLEAR
(R137 to R140). -/

namespace Sys2Proof.Machine

variable {s : State} {f : Frame}

/-! ### The stage (R137, checks 2 and 6) -/

theorem State.stageCommand_full (full : s.store.stage ≠ .empty) (j : Judged) :
    s.stageCommand j = s.refuse .stageFull := by
  cases stage : s.store.stage with
  | empty => exact absurd stage full
  | held op => simp only [State.stageCommand, stage]
  | launched op => simp only [State.stageCommand, stage]

theorem State.stageCommand_ok (empty : s.store.stage = .empty) (op : StoreOp) :
    s.stageCommand (.ok op) = (s.setStore { s.store with stage := .held op }, Reply.bare .ok) := by
  simp only [State.stageCommand, empty]

theorem State.stageCommand_error (empty : s.store.stage = .empty) (st : Status) :
    s.stageCommand (.error st) = s.refuse st := by
  simp only [State.stageCommand, empty]

/-! ### The rows of STORE_STAGE (R137, check 1; log 3) -/

section
variable {row : Instr} {code : Byte} {len : Nat} {judge : Frame → State → Judged}
  (acts : exec row s = .next (s.stageRequest code len judge))

include acts

/-- A frame that names the row's operation is judged as a request of its length. -/
theorem exec_stageNamed (long : 4 < f.length) (engine : s.engine = some ⟨.sup, f⟩) (named : byteAt f 4 = code) :
    exec row s = .next (s.supRequest (Kind.storeStage len) fun f t => t.stageCommand (judge f t)) := by
  simp only [acts, State.stageRequest, engine, namesOp, long, named, decide_true, Bool.and_self, if_true]

theorem exec_stageMalformed (malformed : s.supMalformed (Kind.storeStage len) f) (long : 4 < f.length)
    (named : byteAt f 4 = code) :
    exec row s = .next (s.supAnswer (Kind.storeStage len) f (Reply.bare .badRequest)) := by
  have ⟨_, engine, _⟩ := malformed
  rw [exec_stageNamed acts long engine named]
  exact congrArg Host.Outcome.next (State.supRequest_turnedAway malformed)

/-- A well-formed frame that names the row's operation has the decision of the stage. -/
theorem exec_stageJudged (asks : s.supAsks (Kind.storeStage len) f) (long : 4 < len) (named : byteAt f 4 = code)
    {u : State} {a : Reply} (decided : s.stageCommand (judge f s) = (u, a)) :
    exec row s = .next (u.supAnswer (Kind.storeStage len) f a) := by
  have ⟨_, engine, _, _, _, length⟩ := asks
  have row := exec_stageNamed acts (length ▸ long) engine named
  exact exec_supDecided (d := fun f t => t.stageCommand (judge f t)) row asks decided

/-- A frame that names none of the seven operations is BAD_REQUEST by any row. -/
theorem exec_stageUnknown (asks : s.supAsks (Kind.storeStage len) f) (low : 1 ≤ code.toNat) (high : code.toNat ≤ 7)
    (unknown : byteAt f 4 = 0x00#8 ∨ 7 < (byteAt f 4).toNat) :
    exec row s = .next (s.supAnswer (Kind.storeStage len) f (Reply.bare .badRequest)) := by
  have ⟨_, engine, _⟩ := asks
  have outside : ¬(1 ≤ (byteAt f 4).toNat ∧ (byteAt f 4).toNat ≤ 7) := by
    rcases unknown with zero | high
    · simp [zero]
    · omega
  have other : byteAt f 4 ≠ code := fun e => outside ⟨e ▸ low, e ▸ high⟩
  have none : knownOp f = false := by
    simp only [knownOp, Bool.and_assoc, Bool.and_eq_false_iff, decide_eq_false_iff_not]
    tauto
  have row : exec row s = .next (s.supRequest (Kind.storeStage len) fun _ t => t.refuse .badRequest) := by
    simp [acts, State.stageRequest, engine, namesOp, other, none]
  exact exec_supDecided (d := fun _ t => t.refuse .badRequest) row asks rfl

/-- The answers of a row whose judgement passes every operation that fits. -/
theorem exec_stageRow (long : 4 < len) (low : 1 ≤ code.toNat) (high : code.toNat ≤ 7) {fits : StoreOp → Prop}
    (passes : ∀ op, fits op → judge f s = .ok op) :
    (s.supMalformed (Kind.storeStage len) f → 4 < f.length → byteAt f 4 = code →
      exec row s = .next (s.supAnswer (Kind.storeStage len) f (Reply.bare .badRequest)))
    ∧ (s.supAsks (Kind.storeStage len) f →
      ((byteAt f 4 = 0x00#8 ∨ 7 < (byteAt f 4).toNat) →
        exec row s = .next (s.supAnswer (Kind.storeStage len) f (Reply.bare .badRequest)))
      ∧ (byteAt f 4 = code → s.store.stage ≠ .empty →
        exec row s = .next (s.supAnswer (Kind.storeStage len) f (Reply.bare .stageFull)))
      ∧ (byteAt f 4 = code → s.store.stage = .empty → ∀ op : StoreOp, fits op →
        exec row s = .next ((s.setStore { s.store with stage := .held op }).supAnswer (Kind.storeStage len) f
          (Reply.bare .ok)))) :=
  ⟨exec_stageMalformed acts, fun asks =>
    ⟨exec_stageUnknown acts asks low high,
      fun named full => exec_stageJudged acts asks long named (State.stageCommand_full full _),
      fun named empty op fit => exec_stageJudged acts asks long named
        (by rw [passes op fit]; exact State.stageCommand_ok empty op)⟩⟩

end

/-! ### The judgements (R137, checks 3 to 5; R158) -/

theorem pageOf_none {b : Byte} (high : 16 ≤ b.toNat) : pageOf? b = none := dif_neg (Nat.not_lt.2 high)

theorem judgeProgramEntry_ok (passes : (fieldsOf? ((f.drop 6).take 22)).isSome = true) :
    judgeProgramEntry f = .ok (.programEntry (resOf (byteAt f 5)) ((f.drop 6).take 22)) := by
  obtain ⟨x, fields⟩ := Option.isSome_iff_exists.1 passes
  simp only [judgeProgramEntry, fields]

theorem judgeProgramEntry_badImage (fails : fieldsOf? ((f.drop 6).take 22) = none) :
    judgeProgramEntry f = .error .badImage := by
  simp only [judgeProgramEntry, fails]

theorem judgeErasePage_ok {p : PageNo} (page : byteAt f 5 = byteOf p.val) :
    judgeErasePage f = .ok (.erasePage p) := by
  simp only [judgeErasePage, page, pageOf_byteOf]

theorem judgeErasePage_badOperand (high : 16 ≤ (byteAt f 5).toNat) : judgeErasePage f = .error .badOperand := by
  simp only [judgeErasePage, pageOf_none high]

theorem judgeBlankCheck_all (all : byteAt f 5 = 0xFF#8) : judgeBlankCheck f = .ok (.blankCheck none) :=
  if_pos all

theorem judgeBlankCheck_page {p : PageNo} (page : byteAt f 5 = byteOf p.val) :
    judgeBlankCheck f = .ok (.blankCheck (some p)) := by
  have low : (byteAt f 5).toNat < 16 := by
    rw [page, toNat_byteOf (Nat.lt_trans p.isLt (by decide))]
    exact p.isLt
  have one : byteAt f 5 ≠ 0xFF#8 := fun e => absurd low (by rw [e]; decide)
  rw [judgeBlankCheck, if_neg one]
  simp only [page, pageOf_byteOf]

theorem judgeBlankCheck_badOperand (high : 16 ≤ (byteAt f 5).toNat) (one : byteAt f 5 ≠ 0xFF#8) :
    judgeBlankCheck f = .error .badOperand := by
  simp only [judgeBlankCheck, if_neg one, pageOf_none high]

theorem State.settingsForbidden_iff : s.settingsForbidden = true ↔
    s.part = .spent ∨ s.part = .faulted ∨ (s.part = .ready ∧ s.epoch = 65535) := by
  simp only [State.settingsForbidden, Bool.or_eq_true, Bool.and_eq_true, decide_eq_true_eq, or_assoc]
  rfl

theorem State.settingsForbidden_of_ready (ready : s.part = .ready) (epoch : s.epoch ≠ 65535) :
    s.settingsForbidden = false := by
  simp [State.settingsForbidden, Config.last16, ready, epoch]

theorem State.judgeWriteSettings_notPermitted
    (forbidden : s.part = .spent ∨ s.part = .faulted ∨ (s.part = .ready ∧ s.epoch = 65535)) :
    s.judgeWriteSettings f = .error .notPermitted := if_pos (State.settingsForbidden_iff.2 forbidden)

theorem State.judgeWriteSettings_badOperand (ready : s.part = .ready) (epoch : s.epoch ≠ 65535)
    (fails : settingsOf? (byteAt f 5) (byteAt f 6) (byteAt f 7) (byteAt f 8) (byteAt f 9) = none) :
    s.judgeWriteSettings f = .error .badOperand := by
  simp [State.judgeWriteSettings, State.settingsForbidden_of_ready ready epoch, fails]

theorem State.judgeWriteSettings_ok (ready : s.part = .ready) (epoch : s.epoch ≠ 65535) {x : Settings}
    (passes : settingsOf? (byteAt f 5) (byteAt f 6) (byteAt f 7) (byteAt f 8) (byteAt f 9) = some x) :
    s.judgeWriteSettings f = .ok (.writeSettings x) := by
  simp [State.judgeWriteSettings, State.settingsForbidden_of_ready ready epoch, passes]

theorem State.judgeInitHeader_notPermitted (ready : s.part = .ready) :
    s.judgeInitHeader f = .error .notPermitted := by
  simp [State.judgeInitHeader, State.initForbidden, ready]

theorem State.judgeInitHeader_badOperand (permitted : s.part ≠ .ready) (last : f.word 5 = 65535) :
    s.judgeInitHeader f = .error .badOperand := by
  simp [State.judgeInitHeader, State.initForbidden, permitted, last, Config.last16]

theorem State.judgeInitHeader_ok (permitted : s.part ≠ .ready) (base : f.word 5 ≠ 65535) :
    s.judgeInitHeader f = .ok (.initHeader (f.word 5)) := by
  simp [State.judgeInitHeader, State.initForbidden, permitted, base, Config.last16]

/-- Settles O48: each row's judgement, and what the stage makes of it. -/
theorem stageTakesCommand : Obligations.StageTakesCommand := by
  refine ⟨fun s f row code len member => ?_, fun s f empty => ?_⟩
  · simp only [List.mem_cons, Prod.mk.injEq, List.not_mem_nil, or_false] at member
    rcases member with ⟨rfl, rfl, rfl⟩ | ⟨rfl, rfl, rfl⟩ | ⟨rfl, rfl, rfl⟩ | ⟨rfl, rfl, rfl⟩ | ⟨rfl, rfl, rfl⟩
      | ⟨rfl, rfl, rfl⟩ | ⟨rfl, rfl, rfl⟩
    · refine exec_stageRow (judge := fun f _ => judgeProgramEntry f) rfl (by decide) (by decide) (by decide) ?_
      rintro op ⟨passes, rfl⟩
      exact judgeProgramEntry_ok passes
    · refine exec_stageRow (judge := fun f _ => judgeErasePage f) rfl (by decide) (by decide) (by decide) ?_
      rintro op ⟨p, page, rfl⟩
      exact judgeErasePage_ok page
    · refine exec_stageRow (judge := fun _ _ => .ok .eraseDirectory) rfl (by decide) (by decide) (by decide) ?_
      rintro op rfl
      rfl
    · refine exec_stageRow (judge := fun f _ => judgeBlankCheck f) rfl (by decide) (by decide) (by decide) ?_
      rintro op (⟨all, rfl⟩ | ⟨p, page, rfl⟩)
      · exact judgeBlankCheck_all all
      · exact judgeBlankCheck_page page
    · refine exec_stageRow (judge := fun _ _ => .ok .scanCrc) rfl (by decide) (by decide) (by decide) ?_
      rintro op rfl
      rfl
    · refine exec_stageRow (judge := fun f t => t.judgeWriteSettings f) rfl (by decide) (by decide) (by decide) ?_
      rintro op ⟨ready, epoch, x, passes, rfl⟩
      exact State.judgeWriteSettings_ok ready epoch passes
    · refine exec_stageRow (judge := fun f t => t.judgeInitHeader f) rfl (by decide) (by decide) (by decide) ?_
      rintro op ⟨permitted, base, rfl⟩
      exact State.judgeInitHeader_ok permitted base
  · have refused {row : Instr} {code : Byte} {len : Nat} {judge : Frame → State → Judged} {st : Status}
        (acts : exec row s = .next (s.stageRequest code len judge)) (long : 4 < len)
        (asks : s.supAsks (Kind.storeStage len) f) (named : byteAt f 4 = code) (fails : judge f s = .error st) :
        exec row s = .next (s.supAnswer (Kind.storeStage len) f (Reply.bare st)) :=
      exec_stageJudged acts asks long named (by rw [fails]; exact State.stageCommand_error empty st)
    refine ⟨fun asks named fails => ?_, fun asks named high => ?_, fun asks named high one => ?_,
      fun asks named => ⟨fun forbidden => ?_, fun ready epoch fails => ?_⟩,
      fun asks named => ⟨fun ready => ?_, fun permitted last => ?_⟩⟩
    · exact refused rfl (by decide) asks named (judgeProgramEntry_badImage fails)
    · exact refused rfl (by decide) asks named (judgeErasePage_badOperand high)
    · exact refused rfl (by decide) asks named (judgeBlankCheck_badOperand high one)
    · exact refused rfl (by decide) asks named (State.judgeWriteSettings_notPermitted forbidden)
    · exact refused rfl (by decide) asks named (State.judgeWriteSettings_badOperand ready epoch fails)
    · exact refused rfl (by decide) asks named (State.judgeInitHeader_notPermitted ready)
    · exact refused rfl (by decide) asks named (State.judgeInitHeader_badOperand permitted last)

/-! ### STORE_LAUNCH, STORE_DISCARD and STORE_CLEAR (R138 to R140) -/

theorem storeLaunchDecision_faulted (fault : s.store.fault ≠ none) :
    storeLaunchDecision f s = s.refuse .storeFaulted :=
  if_pos (Option.isSome_iff_ne_none.2 fault)

section
variable (clear : s.store.fault = none)

include clear

theorem storeLaunchDecision_empty (empty : s.store.stage = .empty) :
    storeLaunchDecision f s = s.refuse .nothingStaged := by
  simp [storeLaunchDecision, clear, empty]

theorem storeLaunchDecision_launched {op : StoreOp} (launched : s.store.stage = .launched op) :
    storeLaunchDecision f s = s.refuse .stageLaunched := by
  simp [storeLaunchDecision, clear, launched]

theorem storeLaunchDecision_started {op : StoreOp} (held : s.store.stage = .held op) (ready : s.store.ready = true) :
    storeLaunchDecision f s =
      (s.setStore { s.store with running := some op, stage := .empty }, { status := .ok, extra := [0x01#8] }) := by
  simp [storeLaunchDecision, clear, held, ready, startedByte]

theorem storeLaunchDecision_behind {op : StoreOp} (held : s.store.stage = .held op) (busy : s.store.ready = false) :
    storeLaunchDecision f s =
      (s.setStore { s.store with stage := .launched op }, { status := .ok, extra := [0x02#8] }) := by
  simp [storeLaunchDecision, clear, held, busy, behindByte]

end

theorem storeDiscardDecision_empty (empty : s.store.stage = .empty) :
    storeDiscardDecision f s = s.refuse .nothingStaged := by
  simp only [storeDiscardDecision, empty]

theorem storeDiscardDecision_launched {op : StoreOp} (launched : s.store.stage = .launched op) :
    storeDiscardDecision f s = s.refuse .stageLaunched := by
  simp only [storeDiscardDecision, launched]

theorem storeDiscardDecision_held {op : StoreOp} (held : s.store.stage = .held op) :
    storeDiscardDecision f s = (s.setStore { s.store with stage := .empty }, Reply.bare .ok) := by
  simp only [storeDiscardDecision, held]

/-- Settles O49: the form, then each line of R138 and R139 from the decision it applies to. -/
theorem launchAndDiscard : Obligations.LaunchAndDiscard := by
  refine fun s f => ⟨fun malformed => congrArg Host.Outcome.next (State.supRequest_turnedAway malformed),
    fun asks => ?_, fun malformed => congrArg Host.Outcome.next (State.supRequest_turnedAway malformed),
    fun asks => ?_⟩
  · have launch {u : State} {a : Reply} (decided : storeLaunchDecision f s = (u, a)) :
        exec .storeLaunch s = .next (u.supAnswer Kind.storeLaunch f a) := exec_supDecided rfl asks decided
    exact ⟨fun fault => launch (storeLaunchDecision_faulted fault), fun clear =>
      ⟨fun empty => launch (storeLaunchDecision_empty clear empty),
        fun op launched => launch (storeLaunchDecision_launched clear launched), fun op held =>
          ⟨fun idle unheld => launch
              (storeLaunchDecision_started clear held (Store.ready_iff.2 ⟨idle, unheld, clear⟩)),
            fun busy => launch (storeLaunchDecision_behind clear held (Store.ready_eq_false (busy.imp_right .inl)))⟩⟩⟩
  · have discard {u : State} {a : Reply} (decided : storeDiscardDecision f s = (u, a)) :
        exec .storeDiscard s = .next (u.supAnswer Kind.storeDiscard f a) := exec_supDecided rfl asks decided
    exact ⟨fun empty => discard (storeDiscardDecision_empty empty),
      fun op launched => discard (storeDiscardDecision_launched launched),
      fun op held => discard (storeDiscardDecision_held held)⟩

/-- Settles O50: the form, and the fault cleared. -/
theorem clearChangesFaultAlone : Obligations.ClearChangesFaultAlone := fun _ _ =>
  ⟨fun malformed => congrArg Host.Outcome.next (State.supRequest_turnedAway malformed),
    fun asks => exec_supDecided (d := storeClearDecision) rfl asks rfl⟩

end Sys2Proof.Machine
end

section
/-! PROOFS. The completion event: what the operations on the directory come to, and the notices and the launched command
that a completion is followed by (R122, R136, R141 to R143; log 12, log 16, log 30). -/

namespace Sys2Proof.Machine

variable {s : State}

/-! ### The entries an operation reads (R143, R144) -/

theorem mem_entriesOn (n : ResNo) (p : PageNo) : n ∈ entriesOn p ↔ n.val / 16 = p.val := by
  rw [entriesOn, allResources, List.mem_filter, decide_eq_true_eq, pageOf]
  exact and_iff_right (List.mem_finRange n)

theorem mem_checkedEntries (n : ResNo) (p : PageNo) :
    n ∈ checkedEntries none ∧ (n ∈ checkedEntries (some p) ↔ n.val / 16 = p.val) :=
  ⟨List.mem_finRange n, mem_entriesOn n p⟩

theorem lowestNotBlank_eq_none {m : List Host.Cell} {ns : List ResNo} :
    lowestNotBlank m ns = none ↔ ∀ n ∈ ns, blank (imageOf m n) = true := by
  simp [lowestNotBlank]

/-- The entries of a page, and those of the directory, are read in ascending order (R135). -/
theorem lowestNotBlank_checked {m : List Host.Cell} {p : Option PageNo} {n : ResNo} (here : n ∈ checkedEntries p)
    (found : blank (imageOf m n) = false)
    (lowest : ∀ k ∈ checkedEntries p, k < n → blank (imageOf m k) = true) :
    lowestNotBlank m (checkedEntries p) = some n := by
  cases p with
  | none =>
    exact find_finRange_lowest (by simp [found]) fun k below => by simp [lowest k (List.mem_finRange k) below]
  | some p =>
    rw [lowestNotBlank, checkedEntries, entriesOn, allResources, List.find?_filter]
    have here : pageOf n = p.val := (mem_entriesOn n p).1 here
    refine find_finRange_lowest (by simp [found, here]) fun k below => ?_
    by_cases on : pageOf k = p.val
    · simp [lowest k ((mem_entriesOn k p).2 on) below]
    · simp [on]

/-! ### What an erase comes to (R143) -/

section
variable {op : StoreOp} {ns : List ResNo} {phys : Quirks}

theorem State.runErase_blank (all : ∀ n ∈ ns, blank (imageOf (s.runErase op ns phys).array n) = true) :
    (s.runErase op ns phys).fault = none ∧ (s.runErase op ns phys).result = [] := by
  have low := lowestNotBlank_eq_none.2 all
  simp only [State.runErase] at low ⊢
  simp [low]

theorem State.runErase_found {n : ResNo} (low : lowestNotBlank (s.runErase op ns phys).array ns = some n) :
    (s.runErase op ns phys).fault = some .eraseFailed
      ∧ (s.runErase op ns phys).result = [0x01#8, byteOf n.val] := by
  simp only [State.runErase] at low ⊢
  simp [low, presenceBytes]

/-- An erase that ends without a fault has no result (Table 9-1). -/
theorem State.runErase_ok (h : (s.runErase op ns phys).fault = none) : (s.runErase op ns phys).result = [] := by
  cases low : lowestNotBlank (s.runErase op ns phys).array ns with
  | none => exact (State.runErase_blank (lowestNotBlank_eq_none.1 low)).2
  | some n => rw [(State.runErase_found low).1] at h; simp at h

end

/-! ### The completions of the operations on the directory (R142, R143) -/

theorem State.runningOp_of_serving (serving : s.serving = true) {op : StoreOp} (running : s.store.running = some op) :
    s.runningOp = some op := by
  rw [State.runningOp, if_pos serving, running]

section
variable (serving : s.serving = true) (phys : Quirks)

include serving

theorem exec_programEntryComplete {n : ResNo} {image : List Byte}
    (running : s.store.running = some (.programEntry n image)) : exec (.programEntryComplete phys) s =
      .next (s.complete (.programEntry n image) (s.runProgramEntry n image phys)) := by
  simp only [exec, execProgramEntryComplete, State.runningOp_of_serving serving running]

theorem exec_erasePageComplete {p : PageNo} (running : s.store.running = some (.erasePage p)) :
    exec (.erasePageComplete phys) s =
      .next (s.complete (.erasePage p) (s.runErase (.erasePage p) (entriesOn p) phys)) := by
  simp only [exec, execErasePageComplete, State.runningOp_of_serving serving running]

theorem exec_eraseDirectoryComplete (running : s.store.running = some .eraseDirectory) :
    exec (.eraseDirectoryComplete phys) s =
      .next (s.complete .eraseDirectory (s.runErase .eraseDirectory allResources phys)) := by
  simp only [exec, execEraseDirectoryComplete, State.runningOp_of_serving serving running]

end

/-! ### Notices raised (R122) -/

theorem State.held_of_heldNotices (free : s.heldNotices = 0) : s.store.held = [] := by
  rw [State.heldNotices] at free
  exact List.eq_nil_of_length_eq_zero (by omega)

/-- Port S has room for one notice more behind the one that has just entered (R110). -/
theorem State.supRoom_pushMessage {m : Message} (notice : m.isNotice = true) :
    (s.pushMessage .sup m).supRoom = true ↔ (s.port .sup).notices + 1 < 6 ∧ (s.port .sup).taken + 1 < 8 := by
  simp only [State.supRoom, PortUnit.room, State.port_pushMessage, if_true, PortUnit.notices, PortUnit.taken,
    List.filter_append, List.filter_cons, notice, List.filter_nil, List.length_append, List.length_singleton,
    noticeLimit, portDepth, Config.supNotices, Config.supDepth, Bool.and_eq_true, decide_eq_true_eq]
  omega

theorem State.queue_pushMessage (s : State) (m : Message) :
    ((s.pushMessage .sup m).port .sup).queue = (s.port .sup).queue ++ [m] := by
  rw [State.port_pushMessage, if_pos rfl]

/-! ### A completion with a fault (R141, steps 1 to 4) -/

/-- The notices that dropping what is launched raises. -/
def Stage.skips : Stage → List Message
  | .launched op => [storeSkipped op]
  | .empty | .held _ => []

theorem State.skipLaunched_of_launched {op : StoreOp} (launched : s.store.stage = .launched op) :
    s.skipLaunched = (s.setStore { s.store with stage := .empty }).raiseStoreNotice (storeSkipped op) := by
  simp only [State.skipLaunched, launched]

theorem State.skipLaunched_of_idle (idle : s.store.stage.skips = []) : s.skipLaunched = s := by
  cases stage : s.store.stage with
  | launched op => simp [stage, Stage.skips] at idle
  | empty => simp only [State.skipLaunched, stage]
  | held op => simp only [State.skipLaunched, stage]

theorem Stage.skips_cases (x : Stage) : (∃ op, x = .launched op ∧ x.skips = [storeSkipped op]) ∨ x.skips = [] := by
  cases x with
  | launched op => exact .inl ⟨op, rfl, rfl⟩
  | empty => exact .inr rfl
  | held op => exact .inr rfl

theorem State.skipLaunched_of_wait (wait : s.heldNotices ≠ 0 ∨ s.supRoom = false) :
    s.skipLaunched.store.held = s.store.held ++ s.store.stage.skips ∧ s.skipLaunched.ports = s.ports := by
  rcases s.store.stage.skips_cases with ⟨op, launched, skips⟩ | idle
  · rw [State.skipLaunched_of_launched launched, skips,
      State.raiseStoreNotice_of_wait (s := s.setStore { s.store with stage := .empty }) wait]
    exact ⟨rfl, rfl⟩
  · rw [State.skipLaunched_of_idle idle, idle, List.append_nil]
    exact ⟨rfl, rfl⟩

theorem State.skipLaunched_of_room (free : s.heldNotices = 0) (room : s.supRoom = true ∨ s.store.stage.skips = []) :
    (s.skipLaunched.port .sup).queue = (s.port .sup).queue ++ s.store.stage.skips
      ∧ s.skipLaunched.store.held = s.store.held := by
  rcases s.store.stage.skips_cases with ⟨op, launched, skips⟩ | idle
  · have room : s.supRoom = true := room.resolve_right (by simp [skips])
    rw [State.skipLaunched_of_launched launched, skips,
      State.raiseStoreNotice_of_room (s := s.setStore { s.store with stage := .empty }) free room]
    exact ⟨State.queue_pushMessage _ _, rfl⟩
  · rw [State.skipLaunched_of_idle idle, idle, List.append_nil]
    exact ⟨rfl, rfl⟩

/-- The store IDLE with its fault set, before the notices are raised. -/
def State.stopped (s : State) (fault : StoreFault) : State :=
  s.setStore { s.store with running := none, fault := some fault }

theorem State.finishOp_fault (s : State) (op : StoreOp) (fault : StoreFault) (result : List Byte) :
    s.finishOp op (some fault) result =
      ((s.stopped fault).raiseStoreNotice (storeDone op (some fault) result)).skipLaunched := rfl

section
variable (op : StoreOp) (fault : StoreFault) (result : List Byte)

/-- Where a notice is held already, or port S has no room, both notices are held in their order. -/
theorem State.finishOp_fault_wait (wait : s.heldNotices ≠ 0 ∨ s.supRoom = false) :
    (s.finishOp op (some fault) result).store.held =
        s.store.held ++ storeDone op (some fault) result :: s.store.stage.skips
      ∧ (s.finishOp op (some fault) result).ports = s.ports := by
  rw [State.finishOp_fault, State.raiseStoreNotice_of_wait (s := s.stopped fault) wait]
  obtain ⟨held, ports⟩ := State.skipLaunched_of_wait
    (s := (s.stopped fault).setStore
      { (s.stopped fault).store with held := s.store.held ++ [storeDone op (some fault) result] })
    (.inl (by simp [State.heldNotices, State.setStore]))
  exact ⟨held.trans (List.append_assoc ..), ports⟩

section
variable (free : s.heldNotices = 0) (room : s.supRoom = true)

include free room

theorem State.finishOp_fault_of_room : s.finishOp op (some fault) result =
    ((s.stopped fault).pushMessage .sup (storeDone op (some fault) result)).skipLaunched := by
  rw [State.finishOp_fault, State.raiseStoreNotice_of_room (s := s.stopped fault) free room]

/-- Where port S has room for both notices, or one is all there is, they enter its queue. -/
theorem State.finishOp_fault_room (more : ((s.port .sup).notices + 1 < 6 ∧ (s.port .sup).taken + 1 < 8)
      ∨ s.store.stage.skips = []) :
    ((s.finishOp op (some fault) result).port .sup).queue =
        (s.port .sup).queue ++ storeDone op (some fault) result :: s.store.stage.skips
      ∧ (s.finishOp op (some fault) result).store.held = [] := by
  rw [State.finishOp_fault_of_room op fault result free room]
  obtain ⟨queue, held⟩ := State.skipLaunched_of_room
    (s := (s.stopped fault).pushMessage .sup (storeDone op (some fault) result)) free
    (more.imp_left (State.supRoom_pushMessage (s := s.stopped fault) rfl).2)
  rw [State.queue_pushMessage] at queue
  exact ⟨queue.trans (List.append_assoc ..), held.trans (State.held_of_heldNotices free)⟩

/-- Where port S has room for one alone, STORE_DONE enters its queue, and STORE_SKIPPED is held. -/
theorem State.finishOp_fault_last (last : ¬((s.port .sup).notices + 1 < 6 ∧ (s.port .sup).taken + 1 < 8)) :
    ((s.finishOp op (some fault) result).port .sup).queue =
        (s.port .sup).queue ++ [storeDone op (some fault) result]
      ∧ (s.finishOp op (some fault) result).store.held = s.store.stage.skips := by
  rw [State.finishOp_fault_of_room op fault result free room]
  obtain ⟨held, ports⟩ := State.skipLaunched_of_wait
    (s := (s.stopped fault).pushMessage .sup (storeDone op (some fault) result))
    (.inr (Bool.eq_false_iff.2 fun room => last ((State.supRoom_pushMessage (s := s.stopped fault) rfl).1 room)))
  refine ⟨?_, held.trans (congrArg (· ++ s.store.stage.skips) (State.held_of_heldNotices free))⟩
  rw [State.port, ports]
  exact State.queue_pushMessage (s.stopped fault) _

end
end

/-! ### A completion without a fault (R141, steps 1 to 3 and 5) -/

/-- The store IDLE, before the notice is raised. -/
def State.rested (s : State) : State := s.setStore { s.store with running := none }

theorem State.finishOp_ok (s : State) (op : StoreOp) (result : List Byte) : s.finishOp op none result =
    (s.rested.raiseStoreNotice (storeDone op none result)).setStore
      (s.rested.raiseStoreNotice (storeDone op none result)).store.startLaunched := rfl

/-- Where the STORE_DONE is held, what is launched stays LAUNCHED. -/
theorem State.finishOp_ok_wait (wait : s.heldNotices ≠ 0 ∨ s.supRoom = false) (op : StoreOp) (result : List Byte) :
    s.finishOp op none result =
      s.setStore { s.store with running := none, held := s.store.held ++ [storeDone op none result] } := by
  rw [State.finishOp_ok, State.raiseStoreNotice_of_wait (s := s.rested) wait, Store.startLaunched_of_busy]
  · rfl
  · exact Store.ready_eq_false (.inr (.inl (by simp [State.setStore])))

/-- Where it enters port S's queue, the store is ready for what is launched. -/
theorem State.finishOp_ok_room (free : s.heldNotices = 0) (room : s.supRoom = true) (op : StoreOp)
    (result : List Byte) : s.finishOp op none result =
      (s.rested.pushMessage .sup (storeDone op none result)).setStore s.rested.store.startLaunched := by
  rw [State.finishOp_ok, State.raiseStoreNotice_of_room (s := s.rested) free room]
  rfl

theorem State.rested_ready (clear : s.store.fault = none) (free : s.heldNotices = 0) : s.rested.store.ready = true :=
  Store.ready_iff.2 ⟨rfl, State.held_of_heldNotices free, clear⟩

/-! ### LAUNCHED_COMMAND_START (R136, R141; log 12) -/

theorem exec_launchedCommandStart (serving : s.serving = true) :
    exec .launchedCommandStart s = .next (s.setStore s.store.startLaunched) := by
  rw [exec, execLaunchedCommandStart, if_pos serving]

/-- Settles O53: the completions, a completion with a fault, one without, and the start of what is launched. -/
theorem completionStopsOrGoesOn : Obligations.CompletionStopsOrGoesOn := by
  refine ⟨fun s phys serving => ⟨fun n image running => ?_, fun p running => ⟨?_, State.runErase_ok, ?_⟩,
      fun running => ⟨?_, State.runErase_ok, ?_⟩⟩,
    fun s op fault result => ?_, fun s op result clear => ?_, fun s x serving launched => ⟨?_, ?_⟩⟩
  · exact exec_programEntryComplete serving phys running
  · exact exec_erasePageComplete serving phys running
  · intro n here found lowest
    exact State.runErase_found (lowestNotBlank_checked (p := some p) ((mem_entriesOn n p).2 here) found
      fun k on => lowest k ((mem_entriesOn k p).1 on))
  · exact exec_eraseDirectoryComplete serving phys running
  · intro n found lowest
    exact State.runErase_found (lowestNotBlank_checked (p := none) (List.mem_finRange n) found fun k _ => lowest k)
  · obtain ⟨h, -, store⟩ := s.store_finishOp_fault op fault result
    refine ⟨congrArg Store.running store, congrArg Store.fault store, ?_, ?_, fun free room => ⟨?_, ?_⟩⟩
    · exact (congrArg Store.stage store).trans (by cases s.store.stage <;> rfl)
    · exact State.finishOp_fault_wait op fault result
    · exact State.finishOp_fault_room op fault result free room
    · exact State.finishOp_fault_last op fault result free room
  · obtain ⟨h, -, store⟩ := s.store_finishOp_ok op result
    refine ⟨?_, fun free room => ?_, fun wait => State.finishOp_ok_wait wait op result⟩
    · rw [store, Store.startLaunched_fault]
      exact clear
    · rw [State.finishOp_ok_room free room]
      refine ⟨State.queue_pushMessage s.rested _,
        (Store.startLaunched_held _).trans (State.held_of_heldNotices free), fun x launched => ?_, fun idle => ?_⟩
      · have starts : s.rested.store.startLaunched = { s.rested.store with running := some x, stage := .empty } := by
          rw [Store.startLaunched_of_launched (st := s.rested.store) launched, if_pos (State.rested_ready clear free)]
        exact ⟨congrArg Store.running starts, congrArg Store.stage starts⟩
      · have rests : s.rested.store.startLaunched = s.rested.store := Store.startLaunched_of_idle idle
        exact ⟨congrArg Store.running rests, (congrArg Store.stage rests).trans rfl⟩
  · intro idle unheld clear
    rw [exec_launchedCommandStart serving, Store.startLaunched_of_launched launched,
      if_pos (Store.ready_iff.2 ⟨idle, unheld, clear⟩)]
  · intro busy
    rw [exec_launchedCommandStart serving, Store.startLaunched_of_busy]
    · rfl
    · exact Store.ready_eq_false busy

end Sys2Proof.Machine
end

section
/-! PROOFS. What a PROGRAM_ENTRY, an ERASE_PAGE and an ERASE_DIRECTORY leave of the array when they complete, whatever
the array physically does (R135, R141 to R143; log 6). -/

namespace Sys2Proof.Machine

variable {s : State}

/-! ### Runs of bytes read back -/

theorem readBytes_eq_iff {m : List Host.Cell} {a : Nat} {bs : List Byte} :
    Memory.readBytes m a bs.length = bs ↔ ∀ i < bs.length, Memory.read m (a + i) = byteAt bs i := by
  induction bs generalizing a with
  | nil => simp [Memory.readBytes]
  | cons b bs ih =>
    rw [List.length_cons, Memory.readBytes, List.cons.injEq, ih]
    constructor
    · rintro ⟨first, rest⟩ i hi
      cases i with
      | zero => exact first
      | succ i => rw [← Nat.succ_add_eq_add_succ]; exact rest i (Nat.lt_of_succ_lt_succ hi)
    · intro all
      refine ⟨all 0 (Nat.succ_pos _), fun i hi => ?_⟩
      rw [Nat.succ_add_eq_add_succ]
      exact all (i + 1) (Nat.succ_lt_succ hi)

theorem blank_readBytes_iff {m : List Host.Cell} {a n : Nat} :
    blank (Memory.readBytes m a n) = true ↔ ∀ x, a ≤ x → x < a + n → Memory.read m x = Config.erased := by
  induction n generalizing a with
  | zero => simp only [Memory.readBytes, blank, List.all_nil, true_iff]; omega
  | succ n ih =>
    have tail := ih (a := a + 1)
    simp only [blank] at tail
    rw [Memory.readBytes, blank, List.all_cons, Bool.and_eq_true, decide_eq_true_eq, tail]
    constructor
    · rintro ⟨first, rest⟩ x lo hi
      rcases Nat.eq_or_lt_of_le lo with rfl | lo
      · exact first
      · exact rest x lo (by omega)
    · exact fun all => ⟨all a (Nat.le_refl _) (by omega), fun x lo hi => all x (by omega) (by omega)⟩

theorem readBytes_writeBytes {m : List Host.Cell} (h : Memory.wf m) (a : Nat) (bs : List Byte) :
    Memory.readBytes (Memory.writeBytes m a bs) a bs.length = bs :=
  readBytes_eq_iff.2 fun i hi => by
    rw [Memory.read_writeBytes h.1, if_pos (by omega), Nat.add_sub_cancel_left]

/-- On erased bytes a program as intended leaves what was meant (R135). -/
theorem programmedWith_erased {m : List Host.Cell} {a : Nat} {bs : List Byte}
    (erased : ∀ x, a ≤ x → x < a + bs.length → Memory.read m x = Config.erased) :
    programmedWith m a bs.length bs = bs := by
  have keeps (b : Byte) : Config.erased &&& b = b := BitVec.allOnes_and
  induction bs generalizing a with
  | nil => rfl
  | cons b bs ih =>
    simp only [List.length_cons] at erased
    rw [List.length_cons, programmedWith, erased a (Nat.le_refl _) (by omega), keeps,
      ih fun x lo hi => erased x (by omega) (by omega)]

theorem readsBack_program_erased {m : List Host.Cell} (h : Memory.wf m) {a : Nat} {bs : List Byte}
    (erased : ∀ x, a ≤ x → x < a + bs.length → Memory.read m x = Config.erased) :
    Memory.readBytes ((ArrayAct.program a bs).run m none) a bs.length = bs := by
  rw [ArrayAct.run, programmedWith_erased erased]
  exact readBytes_writeBytes h a bs

/-- A plan leaves every byte that each of its steps leaves alone, and does not spare. -/
theorem read_runPlan {plan : List PlanStep} (hp : ∀ st ∈ plan, st.inside) {a : Nat}
    (clear : ∀ st ∈ plan, st.clearOf a) (spared : ∀ st ∈ plan, a < st.act.addr ∨ st.act.addr + st.spares ≤ a)
    (q : Quirks) {m : List Host.Cell} (h : Memory.wf m) :
    Memory.read (runPlan plan q m).array a = Memory.read m a := by
  induction plan generalizing q m with
  | nil => rfl
  | cons st rest ih =>
    have inside := hp st List.mem_cons_self
    have one := PlanStep.read_step h inside (q.headD none) (clear st List.mem_cons_self)
    have wf := ArrayAct.settle_wf st.act m (ArrayAct.run_wf h inside.1 (q.headD none))
    have rest (q') := ih (fun x hx => hp x (List.mem_cons_of_mem _ hx))
      (fun x hx => clear x (List.mem_cons_of_mem _ hx)) (fun x hx => spared x (List.mem_cons_of_mem _ hx)) q' wf
    have own := spared st List.mem_cons_self
    simp only [runPlan]
    split
    · exact (rest _).trans one
    · split
      · rw [PlanStep.spare, Memory.read_writeBytes wf.1, Memory.readBytes_length, if_neg (by omega), one]
      · exact (rest _).trans one

/-! ### PROGRAM_ENTRY (R142) -/

/-- The step that programs an entry. -/
def programStep (n : ResNo) (image : List Byte) : PlanStep :=
  { act := .program (entryAddr n) (sealImage image), onFail := some 1 }

theorem State.planOf_programEntry {n : ResNo} (image : List Byte) (fresh : blank (imageOf s.array n) = true) :
    s.planOf (.programEntry n image) = [programStep n image] := if_pos fresh

theorem State.planOf_programEntry_notBlank {n : ResNo} (image : List Byte) (used : blank (imageOf s.array n) = false) :
    s.planOf (.programEntry n image) = [] := if_neg (by simp [used])

/-- The step's read-back is the whole image (R142). -/
theorem programStep_readsBack (m : List Host.Cell) (n : ResNo) (image : List Byte) :
    (programStep n image).act.readsBack m = decide (imageOf m n = sealImage image) := by
  rw [programStep, ArrayAct.readsBack, sealImage_length, imageOf]

theorem runPlan_programStep (n : ResNo) (image : List Byte) (q : Quirks) (m : List Host.Cell) :
    (runPlan [programStep n image] q m).array = (programStep n image).act.run m (q.headD none)
      ∧ ((runPlan [programStep n image] q m).failed = none ↔
        imageOf ((programStep n image).act.run m (q.headD none)) n = sealImage image) := by
  simp only [runPlan, ArrayAct.settle_of_none (act := (programStep n image).act) rfl, programStep_readsBack,
    decide_eq_true_eq]
  split
  · rename_i good
    exact ⟨rfl, fun _ => good, fun _ => rfl⟩
  · rename_i bad
    exact ⟨rfl, nofun, fun good => absurd good bad⟩

theorem State.runProgramEntry_notBlank {n : ResNo} (image : List Byte) (phys : Quirks)
    (used : blank (imageOf s.array n) = false) :
    (s.runProgramEntry n image phys).fault = some .notBlank ∧ (s.runProgramEntry n image phys).array = s.array := by
  simp [State.runProgramEntry, State.planOf_programEntry_notBlank image used, used, runPlan]

/-- On a blank entry the read-back decides, and going as intended it is right. -/
theorem State.runProgramEntry_blank (h : Memory.wf s.array) {n : ResNo} (image : List Byte) (phys : Quirks)
    (fresh : blank (imageOf s.array n) = true) :
    (imageOf (s.runProgramEntry n image phys).array n = sealImage image → (s.runProgramEntry n image phys).fault = none)
    ∧ (imageOf (s.runProgramEntry n image phys).array n ≠ sealImage image →
      (s.runProgramEntry n image phys).fault = some .verifyFailed)
    ∧ (phys = [] → imageOf (s.runProgramEntry n image phys).array n = sealImage image) := by
  obtain ⟨array, failed⟩ := runPlan_programStep n image phys s.array
  simp only [State.runProgramEntry, State.planOf_programEntry image fresh, fresh, Bool.not_true, Bool.false_eq_true,
    if_false, array]
  refine ⟨fun good => ?_, fun bad => ?_, ?_⟩
  · simp [failed.2 good]
  · have := mt failed.1 bad
    simp [Option.isSome_iff_ne_none.2 this]
  · rintro rfl
    have erased := blank_readBytes_iff.1 fresh
    rw [imageOf, ← sealImage_length image]
    exact readsBack_program_erased h (by rwa [sealImage_length])

theorem State.read_runProgramEntry (h : Memory.wf s.array) (n : ResNo) (image : List Byte) (phys : Quirks) {a : Nat}
    (outside : a < 24 * n.val ∨ 24 * n.val + 24 ≤ a) :
    Memory.read (s.runProgramEntry n image phys).array a = Memory.read s.array a := by
  have own (st : PlanStep) (hs : st ∈ s.planOf (.programEntry n image)) : st = programStep n image := by
    rw [State.planOf] at hs
    split at hs
    · exact List.mem_singleton.1 hs
    · exact absurd hs List.not_mem_nil
  have reach : (programStep n image).act.addr = 24 * n.val ∧ (programStep n image).act.len = 24 :=
    ⟨rfl, sealImage_length image⟩
  refine read_runPlan (s.planOf_inside _) (fun st hs => ?_) (fun st hs => ?_) phys h <;> rw [own st hs]
  · exact ⟨by rw [reach.1, reach.2]; exact outside, .inl rfl⟩
  · have none : (programStep n image).spares = 0 := rfl
    omega

/-! ### ERASE_PAGE and ERASE_DIRECTORY (R143) -/

/-- The steps that erase directory pages. -/
def erasePages (ps : List PageNo) : List PlanStep := ps.map erasePageStep

theorem erasePageStep_erasesNoHeader (p : PageNo) : (erasePageStep p).act.erasesPage = none := by
  have := p.isLt
  have clear : (erasePageStep p).clearOf 6144 := erasePageStep_clearOf (.inr (by omega))
  exact clear.2.resolve_right (Nat.lt_irrefl _)

/-- An erase of a directory page never ends the work, whether or not it reads back blank (R143). -/
theorem array_runPlan_erasePages_cons (p : PageNo) (ps : List PageNo) (q : Quirks) (m : List Host.Cell) :
    (runPlan (erasePages (p :: ps)) q m).array =
      (runPlan (erasePages ps) q.tail ((erasePageStep p).act.run m (q.headD none))).array := by
  simp only [erasePages, List.map_cons, runPlan, ArrayAct.settle_of_none (erasePageStep_erasesNoHeader p)]
  split
  · rfl
  · rfl

theorem erasePages_inside (ps : List PageNo) : ∀ st ∈ erasePages ps, st.inside := by
  simp only [erasePages, List.forall_mem_map]
  exact fun p _ => erasePageStep_inside p

/-- Erases of directory pages leave the bytes outside them alone, whatever the array physically does. -/
theorem read_erasePages_outside {m : List Host.Cell} (h : Memory.wf m) {ps : List PageNo} (q : Quirks) {a : Nat}
    (outside : ∀ p ∈ ps, a < 384 * p.val ∨ 384 * p.val + 384 ≤ a) :
    Memory.read (runPlan (erasePages ps) q m).array a = Memory.read m a := by
  refine read_runPlan (erasePages_inside ps) (fun st hs => ?_) (fun st hs => ?_) q h
  all_goals
    obtain ⟨p, hp, rfl⟩ := List.mem_map.1 hs
    have apart := outside p hp
  · exact erasePageStep_clearOf apart
  · have address : (erasePageStep p).act.addr = 384 * p.val := rfl
    have none : (erasePageStep p).spares = 0 := rfl
    omega

/-- Going as intended, they leave the pages erased. -/
theorem read_erasePages_intended {m : List Host.Cell} (h : Memory.wf m) {ps : List PageNo} {a : Nat}
    (covered : Memory.read m a = Config.erased ∨ ∃ p ∈ ps, 384 * p.val ≤ a ∧ a < 384 * p.val + 384) :
    Memory.read (runPlan (erasePages ps) [] m).array a = Config.erased := by
  induction ps generalizing m with
  | nil => exact covered.resolve_right (by simp)
  | cons p ps ih =>
    rw [array_runPlan_erasePages_cons]
    have one : Memory.read ((erasePageStep p).act.run m none) a =
        if 384 * p.val ≤ a ∧ a < 384 * p.val + 384 then Config.erased else Memory.read m a :=
      Memory.read_eraseRange h.1 (pageAddr p) pageBytes a
    refine ih (ArrayAct.run_wf h (erasePageStep_inside p).1 none) ?_
    rcases covered with erased | ⟨k, hk, on⟩
    · exact .inl (one.trans (by rw [erased, ite_self]))
    · rcases List.mem_cons.1 hk with rfl | hk
      · exact .inl (one.trans (if_pos on))
      · exact .inr ⟨k, hk, on⟩

/-- The read-back of an erase is the reading of every image it covers (R143). -/
theorem State.runErase_fault {op : StoreOp} {ns : List ResNo} {phys : Quirks} :
    ((∀ n ∈ ns, blank (imageOf (s.runErase op ns phys).array n) = true) → (s.runErase op ns phys).fault = none)
    ∧ ((∃ n ∈ ns, blank (imageOf (s.runErase op ns phys).array n) = false) →
      (s.runErase op ns phys).fault = some .eraseFailed) := by
  refine ⟨fun all => (State.runErase_blank all).1, fun ⟨n, mem, used⟩ => ?_⟩
  cases low : lowestNotBlank (s.runErase op ns phys).array ns with
  | none => simp [lowestNotBlank_eq_none.1 low n mem] at used
  | some k => exact (State.runErase_found low).1

/-! ### The completion with nothing in the stage (R141) -/

/-- With the stage EMPTY a completion leaves the store IDLE, and the fault and the array are its operation's. -/
theorem State.complete_of_empty (empty : s.store.stage = .empty) (clear : s.store.fault = none) (op : StoreOp)
    (r : OpResult) : (s.complete op r).store.running = none ∧ (s.complete op r).store.fault = r.fault
      ∧ (s.complete op r).array = r.array := by
  suffices store : (s.complete op r).store.running = none ∧ (s.complete op r).store.fault = r.fault from
    ⟨store.1, store.2, s.array_complete op r⟩
  rw [State.complete]
  generalize hu : ({ s with array := r.array, active := r.active } : State) = u
  have same : u.store = s.store := by rw [← hu]
  cases fault : r.fault with
  | some f =>
    obtain ⟨h, -, store⟩ := u.store_finishOp_fault op f r.result
    simp [store]
  | none =>
    obtain ⟨h, -, store⟩ := u.store_finishOp_ok op r.result
    rw [store, Store.startLaunched_of_idle (by simp [same, empty])]
    exact ⟨rfl, same ▸ clear⟩

/-- Settles O51: what each operation leaves of the array, and its completion. -/
theorem operationsChangeTheirBytes : Obligations.OperationsChangeTheirBytes := by
  intro s phys serving wf clear empty
  refine ⟨fun n image running length => ?_, fun p running => ?_, fun running => ?_⟩
  · obtain ⟨idle, fault, array⟩ := State.complete_of_empty empty clear (.programEntry n image)
      (s.runProgramEntry n image phys)
    refine ⟨_, exec_programEntryComplete serving phys running, idle, ?_, ?_, ?_⟩ <;> rw [array]
    · rw [fault]
      exact State.runProgramEntry_notBlank image phys
    · rw [fault, ← sealImage_of_length length]
      exact State.runProgramEntry_blank wf image phys
    · exact fun a => State.read_runProgramEntry wf n image phys
  · obtain ⟨idle, fault, array⟩ := State.complete_of_empty empty clear (.erasePage p)
      (s.runErase (.erasePage p) (entriesOn p) phys)
    have page : (s.runErase (.erasePage p) (entriesOn p) phys).array =
        (runPlan (erasePages [p]) phys s.array).array := rfl
    obtain ⟨right, wrong⟩ := State.runErase_fault (s := s) (op := .erasePage p) (ns := entriesOn p) (phys := phys)
    simp only [mem_entriesOn] at right wrong
    refine ⟨_, exec_erasePageComplete serving phys running, idle, ?_, ?_, fun a outside => ?_, ?_⟩ <;> rw [array]
    · rw [fault]
      exact right
    · rw [fault]
      exact wrong
    · rw [page]
      exact read_erasePages_outside wf phys (by simpa using outside)
    · rintro rfl a low high
      rw [page]
      exact read_erasePages_intended wf (.inr ⟨p, List.mem_singleton_self p, low, high⟩)
  · obtain ⟨idle, fault, array⟩ := State.complete_of_empty empty clear .eraseDirectory
      (s.runErase .eraseDirectory allResources phys)
    have directory : (s.runErase .eraseDirectory allResources phys).array =
        (runPlan (erasePages (List.finRange 16)) phys s.array).array := rfl
    obtain ⟨right, wrong⟩ :=
      State.runErase_fault (s := s) (op := .eraseDirectory) (ns := allResources) (phys := phys)
    simp only [allResources, List.mem_finRange, true_and, true_implies] at right wrong
    refine ⟨_, exec_eraseDirectoryComplete serving phys running, idle, ?_, ?_, fun a outside => ?_, ?_⟩ <;> rw [array]
    · rw [fault]
      exact right
    · rw [fault]
      exact wrong
    · rw [directory]
      exact read_erasePages_outside wf phys fun p _ => by omega
    · rintro rfl a below
      rw [directory]
      exact read_erasePages_intended wf (.inr ⟨⟨a / 384, by omega⟩, List.mem_finRange _, by simp only; omega⟩)

end Sys2Proof.Machine
end

section
/-! PROOFS. A header page: what makes it valid, and what a page holds that has been written afresh (R150, R161,
Table 11-8). -/

namespace Sys2Proof.Machine

/-! ### Bytes of a run -/

theorem byteAt_drop (bs : List Byte) (n i : Nat) : byteAt (bs.drop n) i = byteAt bs (n + i) := by
  induction bs generalizing n with
  | nil => simp [byteAt]
  | cons b bs ih =>
    cases n with
    | zero => rw [List.drop_zero, Nat.zero_add]
    | succ n => rw [List.drop_succ_cons, ih, Nat.succ_add, byteAt]

theorem byteAt_take {bs : List Byte} {n i : Nat} (h : i < n) : byteAt (bs.take n) i = byteAt bs i := by
  induction bs generalizing n i with
  | nil => simp
  | cons b bs ih =>
    obtain ⟨n, rfl⟩ := Nat.exists_eq_succ_of_ne_zero (Nat.ne_zero_of_lt h)
    rw [List.take_succ_cons]
    cases i with
    | zero => rfl
    | succ i => exact ih (Nat.lt_of_succ_lt_succ h)

theorem readBytes_add (m : List Host.Cell) (a n k : Nat) :
    Memory.readBytes m a (n + k) = Memory.readBytes m a n ++ Memory.readBytes m (a + n) k := by
  induction n generalizing a with
  | zero => simp [Memory.readBytes]
  | succ n ih =>
    rw [Nat.succ_add, Memory.readBytes, ih, Memory.readBytes, List.cons_append, Nat.succ_add_eq_add_succ]

theorem readBytes_erased {m : List Host.Cell} {a n : Nat}
    (erased : ∀ x, a ≤ x → x < a + n → Memory.read m x = Config.erased) :
    Memory.readBytes m a n = List.replicate n Config.erased := by
  induction n generalizing a with
  | zero => rfl
  | succ n ih =>
    rw [Memory.readBytes, erased a (Nat.le_refl _) (by omega), List.replicate_succ,
      ih fun x lo hi => erased x (by omega) (by omega)]

theorem ofBe16_be16 {n : Nat} (h : n < 65536) : ofBe16 (byteOf (n / 256)) (byteOf n) = n := by
  simp only [ofBe16, byteOf, BitVec.toNat_ofNat]
  omega

theorem be16_length (n : Nat) : (be16 n).length = 2 := rfl

/-! ### Settings (R150) -/

/-- Settings from five bytes. -/
def settingsOfBytes? (bs : List Byte) : Option Settings :=
  settingsOf? (byteAt bs 0) (byteAt bs 1) (byteAt bs 2) (byteAt bs 3) (byteAt bs 4)

theorem headerSettings_eq (bs : List Byte) : headerSettings? bs = settingsOfBytes? ((bs.drop 2).take 5) := by
  have byte {i : Nat} (h : i < 5) : byteAt ((bs.drop 2).take 5) i = byteAt bs (2 + i) := by
    rw [byteAt_take h, byteAt_drop]
  rw [settingsOfBytes?, byte (by decide), byte (by decide), byte (by decide), byte (by decide), byte (by decide)]
  rfl

theorem policyOf_code (p : Policy) : policyOf? p.code = some p := by cases p <;> rfl

/-- The bytes of settings in range say which they are. -/
theorem settingsOfBytes_bytes {x : Settings} (low : 1 ≤ x.prescale) (high : x.prescale ≤ 64) :
    settingsOfBytes? x.bytes = some x := by
  have prescale : (byteOf x.prescale).toNat = x.prescale := toNat_byteOf (Nat.lt_of_le_of_lt high (by decide))
  simp only [settingsOfBytes?, Settings.bytes, byteAt, settingsOf?, prescale, low, high, and_self, if_true,
    policyOf_code]

/-! ### Validity (R150) -/

/-- Bytes 0 to 9 decide whether a page is valid (Table 11-8). -/
theorem headerValid_take (bs : List Byte) : headerValid (bs.take validityBytes) = headerValid bs := by
  have byte {i : Nat} (h : i < 10) : byteAt (bs.take validityBytes) i = byteAt bs i := byteAt_take h
  have base : headerBase (bs.take validityBytes) = headerBase bs := by
    rw [headerBase, byte (by decide), byte (by decide), headerBase]
  have settings : headerSettings? (bs.take validityBytes) = headerSettings? bs := by
    rw [headerSettings?, byte (by decide), byte (by decide), byte (by decide), byte (by decide), byte (by decide),
      headerSettings?]
  have crc : ((bs.take validityBytes).drop 7).take 2 = (bs.drop 7).take 2 := by
    rw [List.drop_take, List.take_take]
    rfl
  have head : (bs.take validityBytes).take 7 = bs.take 7 := List.take_take
  rw [headerValid, byte (by decide), crc, head, base, settings, headerValid]

theorem readBytes_take (m : List Host.Cell) (a : Nat) {n k : Nat} (h : n ≤ k) :
    (Memory.readBytes m a k).take n = Memory.readBytes m a n := by
  obtain ⟨d, rfl⟩ := Nat.exists_eq_add_of_le h
  rw [readBytes_add, List.take_left' (Memory.readBytes_length m a n)]

/-- A page with bytes 0 to 9 as before is valid where it was. -/
theorem validPage_congr {m m' : List Host.Cell} {h : HPage}
    (same : Memory.readBytes m' (headerAddr h) validityBytes = Memory.readBytes m (headerAddr h) validityBytes) :
    validPage m' h = validPage m h := by
  have short : validityBytes ≤ Config.headerBytes := by decide
  rw [validPage, ← headerValid_take, headerOf, readBytes_take _ _ short, same, ← readBytes_take _ _ short,
    headerValid_take]
  rfl

/-- A page whose complete marker is not programmed is invalid. -/
theorem validPage_of_unmarked {m : List Host.Cell} {h : HPage} (unmarked : Memory.read m (headerAddr h + 9) ≠ 0x00#8) :
    validPage m h = false := by
  have byte : byteAt (headerOf m h) 9 = Memory.read m (headerAddr h + 9) := byteAt_readBytes m (by decide)
  simp [validPage, headerValid, byte, unmarked]

/-! ### A page written afresh (R145, R161) -/

/-- The bytes of a header page that holds `head`, bytes 0 to 8, and the complete marker, with no mark used. -/
def freshPage (head : List Byte) : List Byte := head ++ 0x00#8 :: List.replicate 70 Config.erased

theorem highestMark_erased (i n : Nat) : highestMark i (List.replicate n Config.erased) = 0 := by
  induction n generalizing i with
  | zero => rfl
  | succ n ih => simp [List.replicate_succ, highestMark, ih]

section
variable (base : Nat) {settings : List Byte} (five : settings.length = 5)

theorem headerBase_freshPage (h : base < 65536) (settings : List Byte) :
    headerBase (freshPage (headerHead base settings)) = base := ofBe16_be16 h

include five

theorem settings_freshPage : ((freshPage (headerHead base settings)).drop 2).take 5 = settings := by
  have parts : freshPage (headerHead base settings) = be16 base ++ (settings ++
      (crc16Bytes (be16 base ++ settings) ++ 0x00#8 :: List.replicate 70 Config.erased)) := by
    simp only [freshPage, headerHead, List.append_assoc]
  rw [parts, List.drop_left' (be16_length base), List.take_left' five]

theorem headerSettings_freshPage :
    headerSettings? (freshPage (headerHead base settings)) = settingsOfBytes? settings := by
  rw [headerSettings_eq, settings_freshPage base five]

theorem freshPage_after : (freshPage (headerHead base settings)).drop 9 =
    0x00#8 :: List.replicate 70 Config.erased :=
  List.drop_left' (by rw [headerHead_length, five])

theorem marksUsed_freshPage : marksUsed (freshPage (headerHead base settings)) = 0 := by
  have marks : (freshPage (headerHead base settings)).drop 16 = List.replicate 64 Config.erased := by
    rw [show 16 = 9 + 7 from rfl, ← List.drop_drop, freshPage_after base five]
    rfl
  rw [marksUsed, marks, List.take_replicate]
  exact highestMark_erased 0 _

theorem headerValid_freshPage (h : base < 65535) (inRange : (settingsOfBytes? settings).isSome = true) :
    headerValid (freshPage (headerHead base settings)) = true := by
  have marker : byteAt (freshPage (headerHead base settings)) 9 = 0x00#8 := by
    rw [← Nat.add_zero 9, ← byteAt_drop, freshPage_after base five]
    rfl
  have seven : (be16 base ++ settings).length = 7 := by rw [List.length_append, five]; rfl
  have two : (crc16Bytes (be16 base ++ settings)).length = 2 := be16_length _
  have parts : freshPage (headerHead base settings) = (be16 base ++ settings) ++
      (crc16Bytes (be16 base ++ settings) ++ 0x00#8 :: List.replicate 70 Config.erased) := by
    simp only [freshPage, headerHead, List.append_assoc]
  have crc : ((freshPage (headerHead base settings)).drop 7).take 2 =
      crc16Bytes ((freshPage (headerHead base settings)).take 7) := by
    rw [parts, List.drop_left' seven, List.take_left' seven, List.take_left' two]
  rw [headerValid, marker, crc, headerBase_freshPage base (by omega), headerSettings_freshPage base five, inRange]
  simp [Config.last16, h]

end

end Sys2Proof.Machine
end

section
/-! PROOFS. A header page written afresh, and the other one erased: what the steps leave at each way they can end,
whatever the array physically does (R145, R146, R161; log 6). -/

namespace Sys2Proof.Machine

variable {m m' : List Host.Cell} {h : HPage}

/-! ### The two pages -/

theorem headerAddr_apart (h : HPage) :
    headerAddr h + 80 ≤ headerAddr h.other ∨ headerAddr h.other + 80 ≤ headerAddr h := by cases h <;> decide

theorem headerAddr_inside (h : HPage) : headerAddr h + 80 ≤ Memory.size := by cases h <;> decide

theorem HPage.other_other (h : HPage) : h.other.other = h := by cases h <;> rfl

theorem erasesPage_header (h : HPage) (n : Nat) : (ArrayAct.erase (headerAddr h) n).erasesPage = some h := by
  cases h <;> simp [ArrayAct.erasesPage, headerAddr, Config.headerBytes]

/-- Every byte outside the page is as it was. -/
def KeptOutside (h : HPage) (m m' : List Host.Cell) : Prop :=
  ∀ a : Nat, a < headerAddr h ∨ headerAddr h + 80 ≤ a → Memory.read m' a = Memory.read m a

theorem KeptOutside.trans {m'' : List Host.Cell} (one : KeptOutside h m m') (two : KeptOutside h m' m'') :
    KeptOutside h m m'' := fun a outside => (two a outside).trans (one a outside)

/-- The other page is as it was. -/
theorem KeptOutside.other (kept : KeptOutside h m m') {n : Nat} (hn : n ≤ 80) :
    Memory.readBytes m' (headerAddr h.other) n = Memory.readBytes m (headerAddr h.other) n :=
  readBytes_congr fun x lo hi => kept x (by have := headerAddr_apart h; omega)

theorem KeptOutside.of_other (kept : KeptOutside h.other m m') : headerOf m' h = headerOf m h := by
  have same := kept.other (n := 80) (Nat.le_refl _)
  rwa [HPage.other_other] at same

/-! ### Erasing a page (R145, step 1) -/

/-- The array after an erase of a header page, its outcome settled. -/
def eraseHeader (h : HPage) (q : Option (List Byte)) (m : List Host.Cell) : List Host.Cell :=
  (ArrayAct.erase (headerAddr h) Config.headerBytes).settle m
    ((ArrayAct.erase (headerAddr h) Config.headerBytes).run m q)

theorem eraseHeader_run_wf (wf : Memory.wf m) (h : HPage) (q : Option (List Byte)) :
    Memory.wf ((ArrayAct.erase (headerAddr h) Config.headerBytes).run m q) :=
  ArrayAct.run_wf wf (act := .erase (headerAddr h) Config.headerBytes) (headerAddr_inside h) q

theorem eraseHeader_wf (wf : Memory.wf m) (h : HPage) (q : Option (List Byte)) : Memory.wf (eraseHeader h q m) :=
  ArrayAct.settle_wf _ m (eraseHeader_run_wf wf h q)

theorem eraseHeader_kept (wf : Memory.wf m) (h : HPage) (q : Option (List Byte)) :
    KeptOutside h m (eraseHeader h q m) := by
  intro a outside
  have run : Memory.read ((ArrayAct.erase (headerAddr h) Config.headerBytes).run m q) a = Memory.read m a :=
    ArrayAct.read_run wf _ q outside
  simp only [eraseHeader, ArrayAct.settle, erasesPage_header]
  split
  · rw [Memory.read_writeBytes (eraseHeader_run_wf wf h q).1, Memory.readBytes_length, validityBytes,
      if_neg (by omega), run]
  · exact run

/-- An erase as intended reads back blank. -/
theorem eraseHeader_intended (wf : Memory.wf m) (h : HPage) :
    blank (Memory.readBytes (eraseHeader h none m) (headerAddr h) 80) = true := by
  have erased {x : Nat} (lo : headerAddr h ≤ x) (hi : x < headerAddr h + 80) :
      Memory.read ((ArrayAct.erase (headerAddr h) Config.headerBytes).run m none) x = Config.erased := by
    rw [ArrayAct.run, Memory.read_eraseRange wf.1, if_pos ⟨lo, hi⟩]
  have invalid := validPage_of_unmarked (h := h)
    (by rw [erased (x := headerAddr h + 9) (by omega) (by omega)]; decide)
  rw [blank_readBytes_iff, eraseHeader, ArrayAct.settle]
  simp only [erasesPage_header, invalid]
  exact fun x lo hi => erased lo hi

/-! ### A page that is being written (R145, step 2) -/

/-- The page holds `pre`, and is erased behind it; the rest of the array is as it was. -/
structure PageBegun (h : HPage) (pre : List Byte) (m m' : List Host.Cell) : Prop where
  wf : Memory.wf m'
  kept : KeptOutside h m m'
  begun : Memory.readBytes m' (headerAddr h) pre.length = pre
  rest : ∀ x, headerAddr h + pre.length ≤ x → x < headerAddr h + 80 → Memory.read m' x = Config.erased

theorem pageBegun_eraseHeader (wf : Memory.wf m) {q : Option (List Byte)}
    (right : blank (Memory.readBytes (eraseHeader h q m) (headerAddr h) 80) = true) :
    PageBegun h [] m (eraseHeader h q m) :=
  ⟨eraseHeader_wf wf h q, eraseHeader_kept wf h q, rfl, blank_readBytes_iff.1 right⟩

section
variable {pre bs : List Byte} {a : Nat}

/-- A program leaves all but its own bytes. -/
theorem PageBegun.program_keeps (b : PageBegun h pre m m') (q : Option (List Byte)) {x : Nat}
    (outside : x < a ∨ a + bs.length ≤ x) : Memory.read ((ArrayAct.program a bs).run m' q) x = Memory.read m' x :=
  ArrayAct.read_run b.wf (.program a bs) q outside

/-- Before the complete marker, the page is invalid whatever a program has done. -/
theorem PageBegun.program_invalid (b : PageBegun h pre m m') (next : a = headerAddr h + pre.length)
    (before : pre.length + bs.length ≤ 9) (q : Option (List Byte)) :
    validPage ((ArrayAct.program a bs).run m' q) h = false := by
  refine validPage_of_unmarked ?_
  rw [b.program_keeps q (.inr (by omega)), b.rest _ (by omega) (by omega)]
  decide

variable (b : PageBegun h pre m m') (next : a = headerAddr h + pre.length) (fits : pre.length + bs.length ≤ 80)
  (q : Option (List Byte))

include b next fits

theorem PageBegun.program_wf : Memory.wf ((ArrayAct.program a bs).run m' q) :=
  ArrayAct.run_wf b.wf (by have := headerAddr_inside h; simp only [ArrayAct.inside]; omega) q

theorem PageBegun.program_kept : KeptOutside h m ((ArrayAct.program a bs).run m' q) := fun x outside =>
  (b.program_keeps q (by omega)).trans (b.kept x outside)

/-- Read back right, it extends what the page holds. -/
theorem PageBegun.program
    (right : Memory.readBytes ((ArrayAct.program a bs).run m' q) a bs.length = bs) :
    PageBegun h (pre ++ bs) m ((ArrayAct.program a bs).run m' q) where
  wf := b.program_wf next fits q
  kept := b.program_kept next fits q
  begun := by
    rw [List.length_append, readBytes_add, ← next, right,
      readBytes_congr fun x _ hi => b.program_keeps q (.inl (by omega)), b.begun]
  rest x lo hi := by
    rw [List.length_append] at lo
    rw [b.program_keeps q (.inr (by omega))]
    exact b.rest x (by omega) hi

/-- As intended, it reads back right. -/
theorem PageBegun.program_intended : Memory.readBytes ((ArrayAct.program a bs).run m' none) a bs.length = bs :=
  readsBack_program_erased b.wf fun x lo hi => b.rest x (by omega) (by omega)

end

/-- The page holds its head and its marker: it is written. -/
theorem PageBegun.fresh {head : List Byte} (b : PageBegun h (head ++ [0x00#8]) m m') (nine : head.length = 9) :
    headerOf m' h = freshPage head := by
  have ten : (head ++ [0x00#8]).length = 10 := by rw [List.length_append, nine]; rfl
  have begun := b.begun
  have rest := b.rest
  rw [ten] at begun rest
  rw [headerOf, show Config.headerBytes = 10 + 70 from rfl, readBytes_add, begun, readBytes_erased rest, freshPage,
    List.append_assoc]
  rfl

/-! ### The steps in order -/

/-- A step that is named where it fails ends the work there. -/
theorem runPlan_named (st : PlanStep) {k : Nat} (named : st.onFail = some k) (rest : List PlanStep) (q : Quirks)
    (m : List Host.Cell) : runPlan (st :: rest) q m =
      if st.act.readsBack (st.act.settle m (st.act.run m (q.headD none))) then
        runPlan rest q.tail (st.act.settle m (st.act.run m (q.headD none)))
      else { array := st.spare m (st.act.settle m (st.act.run m (q.headD none))), failed := some k,
             incomplete := false } := by
  simp only [runPlan, named]

theorem runPlan_eraseHeader (h : HPage) (k spares : Nat) (rest : List PlanStep) (q : Quirks) (m : List Host.Cell) :
    runPlan ({ act := .erase (headerAddr h) Config.headerBytes, onFail := some k, spares := spares } :: rest) q m =
      if blank (Memory.readBytes (eraseHeader h (q.headD none) m) (headerAddr h) 80) then
        runPlan rest q.tail (eraseHeader h (q.headD none) m)
      else { array := Memory.writeBytes (eraseHeader h (q.headD none) m) (headerAddr h)
               (Memory.readBytes m (headerAddr h) spares), failed := some k, incomplete := false } :=
  runPlan_named _ rfl rest q m

/-- What the steps that write a header page come to, `rest` being the steps that follow them. -/
inductive WriteOutcome (h : HPage) (head : List Byte) (rest : List PlanStep) (q : Quirks) (m : List Host.Cell) :
    PlanResult → Prop
  | written {q' : Quirks} {m' : List Host.Cell} (page : PageBegun h (head ++ [0x00#8]) m m')
      (intended : q = [] → q' = []) : WriteOutcome h head rest q m (runPlan rest q' m')
  | unerased {m' : List Host.Cell} (kept : KeptOutside h m m') (quirks : q ≠ []) :
      WriteOutcome h head rest q m { array := m', failed := some 1, incomplete := false }
  | unprogrammed {m' : List Host.Cell} (kept : KeptOutside h m m') (invalid : validPage m' h = false)
      (quirks : q ≠ []) : WriteOutcome h head rest q m { array := m', failed := some 2, incomplete := false }

theorem headD_of_nil {q : Quirks} (none : q = []) : q.headD Option.none = Option.none := by rw [none]; rfl

/-- One program of the three, where those before it have read back right and those behind it follow. -/
theorem writeOutcome_program {head pre bs : List Byte} {a : Nat} {rest behind : List PlanStep} {q q' : Quirks}
    (b : PageBegun h pre m m') (next : a = headerAddr h + pre.length) (fits : pre.length + bs.length ≤ 80)
    (intended : q = [] → q' = [])
    (wrong : Memory.readBytes ((ArrayAct.program a bs).run m' (q'.headD none)) a bs.length ≠ bs →
      validPage ((ArrayAct.program a bs).run m' (q'.headD none)) h = false)
    (goesOn : ∀ m'', PageBegun h (pre ++ bs) m m'' → WriteOutcome h head rest q m (runPlan behind q'.tail m'')) :
    WriteOutcome h head rest q m (runPlan ({ act := .program a bs, onFail := some 2 } :: behind) q' m') := by
  rw [runPlan_named _ rfl, ArrayAct.settle_of_none rfl]
  simp only [ArrayAct.readsBack, decide_eq_true_eq]
  split
  · rename_i right
    exact goesOn _ (b.program next fits _ right)
  · rename_i bad
    refine .unprogrammed (b.program_kept next fits _) (wrong bad) fun none => bad ?_
    rw [headD_of_nil (intended none)]
    exact b.program_intended next fits

theorem writeOutcome (wf : Memory.wf m) (h : HPage) {head : List Byte} (nine : head.length = 9)
    (rest : List PlanStep) (q : Quirks) :
    WriteOutcome h head rest q m (runPlan (writePagePlan h head ++ rest) q m) := by
  have seven : (head.take 7).length = 7 := by rw [List.length_take, nine]; rfl
  have two : (head.drop 7).length = 2 := by rw [List.length_drop, nine]
  have all : [] ++ head.take 7 ++ head.drop 7 = head := List.take_append_drop 7 head
  have tail {q q' : Quirks} (intended : q = [] → q' = []) (none : q = []) : q'.tail = [] := by
    rw [intended none]; rfl
  rw [writePagePlan, List.cons_append, runPlan_eraseHeader]
  split
  · rename_i right
    refine writeOutcome_program (pageBegun_eraseHeader wf right) rfl (by simp [seven]) (tail id)
      (fun _ => ?_) fun m₂ b₂ => ?_
    · exact (pageBegun_eraseHeader wf right).program_invalid rfl (by simp [seven]) _
    refine writeOutcome_program b₂ (by simp [seven]) (by simp [seven, two]) (tail (tail id))
      (fun _ => b₂.program_invalid (by simp [seven]) (by simp [seven, two]) _) fun m₃ b₃ => ?_
    rw [all] at b₃
    refine writeOutcome_program b₃ (by rw [nine]) (by simp [nine]) (tail (tail (tail id)))
      (fun wrong => validPage_of_unmarked fun marked => wrong ?_) fun m₄ b₄ => ?_
    · simp only [List.length_singleton, Memory.readBytes, marked]
    · exact .written b₄ (tail (tail (tail (tail id))))
  · rename_i wrong
    refine .unerased (eraseHeader_kept wf h _) fun none => wrong ?_
    rw [headD_of_nil none]
    exact eraseHeader_intended wf h

/-! ### A page written, and the other one erased (R145, R146) -/

/-- What a header operation comes to. -/
inductive HeaderOutcome (h : HPage) (head : List Byte) (spares : Nat) (m : List Host.Cell) : PlanResult → Prop
  | done {m' : List Host.Cell} (fresh : headerOf m' h = freshPage head) (invalid : validPage m' h.other = false) :
      HeaderOutcome h head spares m { array := m', failed := none, incomplete := false }
  | unerased {m' : List Host.Cell} (other : headerOf m' h.other = headerOf m h.other) :
      HeaderOutcome h head spares m { array := m', failed := some 1, incomplete := false }
  | unprogrammed {m' : List Host.Cell} (other : headerOf m' h.other = headerOf m h.other)
      (invalid : validPage m' h = false) :
      HeaderOutcome h head spares m { array := m', failed := some 2, incomplete := false }
  | bothLeft {m' : List Host.Cell} (fresh : headerOf m' h = freshPage head)
      (spared : Memory.readBytes m' (headerAddr h.other) spares = Memory.readBytes m (headerAddr h.other) spares) :
      HeaderOutcome h head spares m { array := m', failed := some 3, incomplete := false }

theorem headerOutcome (wf : Memory.wf m) (h : HPage) {head : List Byte} (nine : head.length = 9) {spares : Nat}
    (short : spares ≤ 80) (q : Quirks) :
    HeaderOutcome h head spares m (runPlan (headerPlan h head spares) q m)
      ∧ (q = [] → (runPlan (headerPlan h head spares) q m).failed = none) := by
  have wrote := writeOutcome wf h nine
    [{ act := .erase (headerAddr h.other) Config.headerBytes, onFail := some 3, spares := spares }] q
  rw [headerPlan]
  generalize runPlan (writePagePlan h head ++ _) q m = r at wrote
  cases wrote with
  | unerased kept quirks => exact ⟨.unerased (kept.other (Nat.le_refl 80)), fun none => absurd none quirks⟩
  | unprogrammed kept invalid quirks =>
    exact ⟨.unprogrammed (kept.other (Nat.le_refl 80)) invalid, fun none => absurd none quirks⟩
  | @written q' m' page intended =>
    have fresh := page.fresh nine
    have kept := eraseHeader_kept page.wf h.other (q'.headD none)
    rw [runPlan_eraseHeader]
    split
    · rename_i right
      refine ⟨.done (kept.of_other.trans fresh) (validPage_of_unmarked ?_), fun _ => rfl⟩
      rw [blank_readBytes_iff.1 right _ (by omega) (by omega)]
      decide
    · rename_i wrong
      have wf' := eraseHeader_wf page.wf h.other (q'.headD none)
      have length := Memory.readBytes_length m' (headerAddr h.other) spares
      refine ⟨.bothLeft ?_ ?_, fun none => absurd ?_ wrong⟩
      · refine (KeptOutside.of_other fun a outside => ?_ : _ = headerOf m' h).trans fresh
        rw [Memory.read_writeBytes wf'.1, length, if_neg (by omega), kept a outside]
      · have spared := readBytes_writeBytes wf' (headerAddr h.other) (Memory.readBytes m' (headerAddr h.other) spares)
        rw [length] at spared
        rw [spared, page.kept.other short]
      · rw [headD_of_nil (intended none)]
        exact eraseHeader_intended page.wf h.other

section
variable {head : List Byte} {spares : Nat} {r : PlanResult} (o : HeaderOutcome h head spares m r)

include o

theorem HeaderOutcome.of_done (good : r.failed = none) :
    headerOf r.array h = freshPage head ∧ validPage r.array h.other = false := by
  cases o with
  | done fresh invalid => exact ⟨fresh, invalid⟩
  | unerased => simp at good
  | unprogrammed => simp at good
  | bothLeft => simp at good

/-- A failure names its step: before the last one the other page is as it was, and after it both pages are there. -/
theorem HeaderOutcome.of_failed {k : Nat} (fails : r.failed = some k) :
    (k = 1 ∨ k = 2 ∨ k = 3) ∧ (k ≠ 3 → headerOf r.array h.other = headerOf m h.other)
      ∧ (k = 2 → validPage r.array h = false)
      ∧ (k = 3 → headerOf r.array h = freshPage head
        ∧ Memory.readBytes r.array (headerAddr h.other) spares = Memory.readBytes m (headerAddr h.other) spares) := by
  cases o with
  | done => simp at fails
  | unerased other =>
    obtain rfl := Option.some.inj fails
    exact ⟨.inl rfl, fun _ => other, nofun, nofun⟩
  | unprogrammed other invalid =>
    obtain rfl := Option.some.inj fails
    exact ⟨.inr (.inl rfl), fun _ => other, fun _ => invalid, nofun⟩
  | bothLeft fresh spared =>
    obtain rfl := Option.some.inj fails
    exact ⟨.inr (.inr rfl), fun last => absurd rfl last, nofun, fun _ => ⟨fresh, spared⟩⟩

end

end Sys2Proof.Machine
end

section
/-! PROOFS. The completions of BLANK_CHECK, SCAN_CRC, WRITE_SETTINGS and INIT_HEADER (R144 to R146; log 6, log 16,
log 21, log 30). -/

namespace Sys2Proof.Machine

variable {s : State}

/-! ### BLANK_CHECK and SCAN_CRC (R144) -/

section
variable (serving : s.serving = true)

include serving

theorem exec_blankCheckComplete {p : Option PageNo} (running : s.store.running = some (.blankCheck p)) :
    exec .blankCheckComplete s = .next (s.finishOp (.blankCheck p) none
      (presenceBytes (lowestNotBlank s.array (checkedEntries p)))) := by
  simp only [exec, execBlankCheckComplete, State.runningOp_of_serving serving running]
  rfl

theorem exec_scanCrcComplete (running : s.store.running = some .scanCrc) :
    exec .scanCrcComplete s = .next (s.finishOp .scanCrc none
      (countBytes (loadDirectory s.array) ++ presenceBytes (lowestDamaged s.array))) := by
  simp only [exec, execScanCrcComplete, State.runningOp_of_serving serving running]
  rfl

theorem exec_writeSettingsComplete {x : Settings} (running : s.store.running = some (.writeSettings x))
    (phys : Quirks) : exec (.writeSettingsComplete phys) s =
      .next (s.complete (.writeSettings x) (s.runWriteSettings x phys)) := by
  simp only [exec, execWriteSettingsComplete, State.runningOp_of_serving serving running]

theorem exec_initHeaderComplete_failed {base : Nat} (running : s.store.running = some (.initHeader base))
    {phys : Quirks} {fault : StoreFault} (fails : (s.runInitHeader base phys).fault = some fault) :
    exec (.initHeaderComplete phys) s = .next (s.complete (.initHeader base) (s.runInitHeader base phys)) := by
  simp [exec, execInitHeaderComplete, State.runningOp_of_serving serving running, fails]

end

/-- The counts of a scan, DEFINED, UNDEFINED and DAMAGED, entry by entry. -/
theorem countBytes_loadDirectory (m : List Host.Cell) : countBytes (loadDirectory m) =
    be16 (allResources.countP fun n => (classify (imageOf m n)).code == 0x01#8)
      ++ be16 (allResources.countP fun n => (classify (imageOf m n)).code == 0x00#8)
      ++ be16 (allResources.countP fun n => (classify (imageOf m n)).code == 0x02#8) := by
  simp only [countBytes, loadDirectory, List.countP_map]
  rfl

theorem lowestDamaged_none {m : List Host.Cell} (sound : ∀ n : ResNo, classify (imageOf m n) ≠ .damaged) :
    lowestDamaged m = none := by
  simp [lowestDamaged, sound]

theorem lowestDamaged_some {m : List Host.Cell} {n : ResNo} (found : classify (imageOf m n) = .damaged)
    (lowest : ∀ k < n, classify (imageOf m k) ≠ .damaged) : lowestDamaged m = some n :=
  find_finRange_lowest (by simp [found]) fun k below => by simp [lowest k below]

/-! ### What a header operation leaves (R145, R146) -/

/-- The directory is left alone by a header page written and the other one erased. -/
theorem read_headerPlan {m : List Host.Cell} (wf : Memory.wf m) (h : HPage) {head : List Byte} (nine : head.length = 9)
    {spares : Nat} (short : spares ≤ 80) (q : Quirks) {a : Nat} (below : a < 6144) :
    Memory.read (runPlan (headerPlan h head spares) q m).array a = Memory.read m a :=
  read_runPlan (headerPlan_inside h (Nat.le_of_eq nine) short)
    (fun st hs => PlanStep.clearOf_header (headerPlan_addr h head spares st hs) below)
    (fun st hs => .inl (Nat.lt_of_lt_of_le below (headerPlan_addr h head spares st hs))) q wf

/-- A plan fails by a step that names the failure. -/
theorem runPlan_failed {plan : List PlanStep} {q : Quirks} {m : List Host.Cell} {k : Nat}
    (fails : (runPlan plan q m).failed = some k) : ∃ st ∈ plan, st.onFail = some k := by
  induction plan generalizing q m with
  | nil => simp [runPlan] at fails
  | cons st rest ih =>
    simp only [runPlan] at fails
    split at fails
    · obtain ⟨x, hx, named⟩ := ih fails
      exact ⟨x, List.mem_cons_of_mem _ hx, named⟩
    · split at fails
      · rename_i named
        exact ⟨st, List.mem_cons_self, named.trans fails⟩
      · obtain ⟨x, hx, named⟩ := ih fails
        exact ⟨x, List.mem_cons_of_mem _ hx, named⟩

theorem headerPlan_failed {h : HPage} {head : List Byte} {spares : Nat} {q : Quirks} {m : List Host.Cell} {k : Nat}
    (fails : (runPlan (headerPlan h head spares) q m).failed = some k) : k = 1 ∨ k = 2 ∨ k = 3 := by
  obtain ⟨st, hs, named⟩ := runPlan_failed fails
  simp only [headerPlan, writePagePlan, List.cons_append, List.nil_append, List.mem_cons, List.not_mem_nil, or_false]
    at hs
  rcases hs with rfl | rfl | rfl | rfl | rfl <;> obtain rfl := Option.some.inj named
  exacts [.inl rfl, .inr (.inl rfl), .inr (.inl rfl), .inr (.inl rfl), .inr (.inr rfl)]

/-- A page written with settings in range is valid, and has the base and the settings, and no mark used. -/
theorem freshPage_reads {m : List Host.Cell} {h : HPage} {base : Nat} {settings : List Byte}
    (five : settings.length = 5) (below : base < 65535) {x : Settings} (inRange : settingsOfBytes? settings = some x)
    (fresh : headerOf m h = freshPage (headerHead base settings)) :
    validPage m h = true ∧ headerBase (headerOf m h) = base ∧ marksUsed (headerOf m h) = 0
      ∧ headerSettings? (headerOf m h) = some x := by
  rw [validPage, fresh]
  exact ⟨headerValid_freshPage base five below (by simp [inRange]), headerBase_freshPage base (by omega) settings,
    marksUsed_freshPage base five, (headerSettings_freshPage base five).trans inRange⟩

/-! ### WRITE_SETTINGS (R145) -/

theorem State.headerTarget_of_active (started : s.part ≠ .faulted) {h : HPage} (active : s.active = some h) :
    s.headerTarget = h.other := by
  simp [State.headerTarget, started, active]

theorem settingsHead_length (base : Nat) (x : Settings) : (headerHead base x.bytes).length = 9 := by
  rw [headerHead_length]; rfl

theorem State.runWriteSettings_ok {x : Settings} {phys : Quirks}
    (good : (runPlan (s.planOf (.writeSettings x)) phys s.array).failed = none) :
    (s.runWriteSettings x phys).fault = none
      ∧ (s.runWriteSettings x phys).result = s.headerTarget.code :: be16 s.epoch
      ∧ (s.runWriteSettings x phys).active = some s.headerTarget := by
  simp [State.runWriteSettings, good]

theorem State.runWriteSettings_failed {x : Settings} {phys : Quirks} {k : Nat}
    (fails : (runPlan (s.planOf (.writeSettings x)) phys s.array).failed = some k) :
    (s.runWriteSettings x phys).fault = some .headerFailed ∧ (s.runWriteSettings x phys).result = [byteOf k]
      ∧ (s.runWriteSettings x phys).active = if k = 3 then some s.headerTarget else s.active := by
  simp [State.runWriteSettings, fails]

section
variable {h : HPage} (ready : s.part = .ready) (active : s.active = some h)

include ready active

theorem State.headerTarget_of_ready : s.headerTarget = h.other :=
  State.headerTarget_of_active (by rw [ready]; decide) active

theorem State.planOf_writeSettings (x : Settings) :
    s.planOf (.writeSettings x) = headerPlan h.other (headerHead s.epoch x.bytes) validityBytes := by
  rw [State.planOf, State.headerTarget_of_ready ready active]

variable (wf : Memory.wf s.array) (x : Settings) (phys : Quirks)

include wf

/-- The steps of a WRITE_SETTINGS come to one of their ends, and going as intended to the good one. -/
theorem State.writeSettings_outcome :
    HeaderOutcome h.other (headerHead s.epoch x.bytes) validityBytes s.array
        (runPlan (s.planOf (.writeSettings x)) phys s.array)
      ∧ (phys = [] → (runPlan (s.planOf (.writeSettings x)) phys s.array).failed = none) := by
  rw [State.planOf_writeSettings ready active]
  exact headerOutcome wf h.other (settingsHead_length s.epoch x) (by decide) phys

theorem State.read_runWriteSettings {a : Nat} (below : a < 6144) :
    Memory.read (s.runWriteSettings x phys).array a = Memory.read s.array a := by
  rw [array_runWriteSettings, State.planOf_writeSettings ready active]
  exact read_headerPlan wf _ (settingsHead_length s.epoch x) (by decide) phys below

section
variable (below : s.epoch < 65535) (low : 1 ≤ x.prescale) (high : x.prescale ≤ 64)

include below low high

/-- Going well, the page written is active and alone, with the current epoch as its base (R145). -/
theorem State.runWriteSettings_done
    (good : (runPlan (s.planOf (.writeSettings x)) phys s.array).failed = none) :
    (s.runWriteSettings x phys).fault = none
      ∧ (s.runWriteSettings x phys).result = h.other.code :: be16 s.epoch
      ∧ (s.runWriteSettings x phys).active = some h.other
      ∧ validPage (s.runWriteSettings x phys).array h.other = true
      ∧ validPage (s.runWriteSettings x phys).array h = false
      ∧ headerBase (headerOf (s.runWriteSettings x phys).array h.other) = s.epoch
      ∧ marksUsed (headerOf (s.runWriteSettings x phys).array h.other) = 0
      ∧ headerSettings? (headerOf (s.runWriteSettings x phys).array h.other) = some x := by
  obtain ⟨fault, result, written⟩ := State.runWriteSettings_ok good
  obtain ⟨fresh, invalid⟩ := (State.writeSettings_outcome ready active wf x phys).1.of_done good
  rw [HPage.other_other] at invalid
  rw [State.headerTarget_of_ready ready active] at result written
  obtain ⟨valid, reads⟩ := freshPage_reads rfl below (settingsOfBytes_bytes low high) fresh
  rw [array_runWriteSettings]
  exact ⟨fault, result, written, valid, invalid, reads⟩

/-- Failing, it names the step; before step 3 the old page is active as it was, and at step 3 both are valid (R145). -/
theorem State.runWriteSettings_stopped (valid : validPage s.array h = true) {k : Nat}
    (fails : (runPlan (s.planOf (.writeSettings x)) phys s.array).failed = some k) :
    (k = 1 ∨ k = 2 ∨ k = 3) ∧ (s.runWriteSettings x phys).fault = some .headerFailed
      ∧ (s.runWriteSettings x phys).result = [byteOf k]
      ∧ (k ≠ 3 → (s.runWriteSettings x phys).active = some h
        ∧ headerOf (s.runWriteSettings x phys).array h = headerOf s.array h)
      ∧ (k = 2 → validPage (s.runWriteSettings x phys).array h.other = false)
      ∧ (k = 3 → (s.runWriteSettings x phys).active = some h.other
        ∧ validPage (s.runWriteSettings x phys).array h = true
        ∧ validPage (s.runWriteSettings x phys).array h.other = true
        ∧ headerBase (headerOf (s.runWriteSettings x phys).array h.other) = s.epoch
        ∧ marksUsed (headerOf (s.runWriteSettings x phys).array h.other) = 0
        ∧ headerSettings? (headerOf (s.runWriteSettings x phys).array h.other) = some x) := by
  obtain ⟨fault, result, written⟩ := State.runWriteSettings_failed fails
  obtain ⟨step, before, second, third⟩ := (State.writeSettings_outcome ready active wf x phys).1.of_failed fails
  rw [HPage.other_other] at before third
  rw [State.headerTarget_of_ready ready active] at written
  rw [array_runWriteSettings]
  refine ⟨step, fault, result, fun early => ⟨?_, before early⟩, second, fun last => ?_⟩
  · rw [written, if_neg early, active]
  · obtain ⟨fresh, spared⟩ := third last
    obtain ⟨new, reads⟩ := freshPage_reads rfl below (settingsOfBytes_bytes low high) fresh
    exact ⟨by rw [written, if_pos last], (validPage_congr spared).trans valid, new, reads⟩

end
end

/-! ### INIT_HEADER (R146) -/

theorem initHead_length (s : State) (base : Nat) : (headerHead base s.initSettings).length = 9 := by
  rw [headerHead_length, s.initSettings_length]

theorem State.read_runInitHeader (wf : Memory.wf s.array) (base : Nat) (phys : Quirks) {a : Nat} (below : a < 6144) :
    Memory.read (s.runInitHeader base phys).array a = Memory.read s.array a := by
  rw [array_runInitHeader]
  exact read_headerPlan wf _ (initHead_length s base) (Nat.zero_le _) phys below

/-- The active page stays (R146; log 21). -/
theorem active_runInitHeader (s : State) (base : Nat) (phys : Quirks) :
    (s.runInitHeader base phys).active = s.active := by
  simp only [State.runInitHeader]
  split <;> rfl

theorem State.runInitHeader_ok {base : Nat} {phys : Quirks}
    (good : (runPlan (s.planOf (.initHeader base)) phys s.array).failed = none) :
    (s.runInitHeader base phys).fault = none := by
  simp [State.runInitHeader, good]

theorem State.runInitHeader_failed {base : Nat} {phys : Quirks} {k : Nat}
    (fails : (runPlan (s.planOf (.initHeader base)) phys s.array).failed = some k) :
    (s.runInitHeader base phys).fault = some .headerFailed ∧ (s.runInitHeader base phys).result = [byteOf k] := by
  simp [State.runInitHeader, fails]

/-- In FAULTED H0 is written with the defaults, and in SPENT the page that is not active, with the active page's
settings (R146; log 21). -/
theorem State.initHeader_writes {h : HPage} {x : Settings}
    (which : (s.part = .faulted ∧ h = .h1 ∧ x = Settings.defaults)
      ∨ (s.part = .spent ∧ s.active = some h ∧ headerSettings? (headerOf s.array h) = some x)) :
    s.headerTarget = h.other ∧ settingsOfBytes? s.initSettings = some x := by
  rcases which with ⟨faulted, rfl, rfl⟩ | ⟨spent, active, settings⟩
  · refine ⟨by simp [State.headerTarget, faulted, HPage.other], ?_⟩
    rw [State.initSettings, if_pos faulted]
    exact settingsOfBytes_bytes (by decide) (by decide)
  · have started : s.part ≠ .faulted := by rw [spent]; decide
    refine ⟨State.headerTarget_of_active started active, ?_⟩
    rw [headerSettings_eq] at settings
    simpa only [State.initSettings, if_neg started, active] using settings

/-- Going as intended, INIT_HEADER leaves one valid page, with the base asked for (R146). -/
theorem State.runInitHeader_intended (wf : Memory.wf s.array) {base : Nat} (below : base < 65535) {h : HPage}
    {x : Settings} (target : s.headerTarget = h.other) (settings : settingsOfBytes? s.initSettings = some x) :
    (s.runInitHeader base []).fault = none
      ∧ validPage (s.runInitHeader base []).array h.other = true
      ∧ validPage (s.runInitHeader base []).array h = false
      ∧ headerBase (headerOf (s.runInitHeader base []).array h.other) = base
      ∧ marksUsed (headerOf (s.runInitHeader base []).array h.other) = 0
      ∧ headerSettings? (headerOf (s.runInitHeader base []).array h.other) = some x := by
  have plan : s.planOf (.initHeader base) = headerPlan h.other (headerHead base s.initSettings) 0 := by
    rw [State.planOf, target]
  obtain ⟨outcome, intended⟩ := headerOutcome wf h.other (initHead_length s base) (Nat.zero_le 80) []
  rw [← plan] at outcome intended
  obtain ⟨fresh, invalid⟩ := outcome.of_done (intended rfl)
  rw [HPage.other_other] at invalid
  obtain ⟨valid, reads⟩ := freshPage_reads s.initSettings_length below settings fresh
  rw [array_runInitHeader]
  exact ⟨State.runInitHeader_ok (intended rfl), valid, invalid, reads⟩

/-- An INIT_HEADER that ends with a fault has failed at one of its steps. -/
theorem State.runInitHeader_stopped {base : Nat} {phys : Quirks} {fault : StoreFault}
    (fails : (s.runInitHeader base phys).fault = some fault) : fault = .headerFailed ∧ ∃ k : Nat,
      (k = 1 ∨ k = 2 ∨ k = 3) ∧ (runPlan (s.planOf (.initHeader base)) phys s.array).failed = some k
        ∧ (s.runInitHeader base phys).result = [byteOf k] := by
  cases failed : (runPlan (s.planOf (.initHeader base)) phys s.array).failed with
  | none => rw [State.runInitHeader_ok failed] at fails; simp at fails
  | some k =>
    obtain ⟨named, result⟩ := State.runInitHeader_failed failed
    exact ⟨(Option.some.inj (named.symm.trans fails)).symm, k, headerPlan_failed failed, rfl, result⟩

/-- Settles O52: the two operations that read, WRITE_SETTINGS by its outcomes, and INIT_HEADER. -/
theorem checksAndSettingsComplete : Obligations.ChecksAndSettingsComplete := by
  refine ⟨mem_checkedEntries, fun s serving => ⟨fun p running => ⟨fun all => ?_, fun n here found lowest => ?_⟩,
    fun running => ⟨fun sound => ?_, fun n found lowest => ?_⟩,
    fun x h phys running wf ready active valid below low high => ⟨?_, ?_, ?_, ?_, fun k fails => ?_⟩,
    fun base h x wf below which => ?_, fun base phys wf a below => ?_, fun base phys fault running fails => ?_⟩⟩
  · rw [exec_blankCheckComplete serving running, lowestNotBlank_eq_none.2 all]
    rfl
  · rw [exec_blankCheckComplete serving running, lowestNotBlank_checked here found lowest]
    rfl
  · rw [exec_scanCrcComplete serving running, lowestDamaged_none sound, countBytes_loadDirectory]
    rfl
  · rw [exec_scanCrcComplete serving running, lowestDamaged_some found lowest, countBytes_loadDirectory]
    rfl
  · exact exec_writeSettingsComplete serving running phys
  · exact (State.writeSettings_outcome ready active wf x phys).2
  · exact fun a => State.read_runWriteSettings ready active wf x phys
  · exact State.runWriteSettings_done ready active wf x phys below low high
  · exact State.runWriteSettings_stopped ready active wf x phys below low high valid fails
  · obtain ⟨target, settings⟩ := State.initHeader_writes which
    exact State.runInitHeader_intended wf below target settings
  · exact State.read_runInitHeader wf base phys below
  · obtain ⟨rfl, k, step, failed, result⟩ := State.runInitHeader_stopped fails
    refine ⟨rfl, k, step, failed, ?_⟩
    rw [exec_initHeaderComplete_failed serving running fails, State.complete, fails, result, active_runInitHeader]

end Sys2Proof.Machine
end
